-- ==== Sys2Proof/Word.lean ====
section
/-! DEFINITION. The three plain types of the CORE: bytes, 16-bit words and text.

Data is 8 bits wide and addresses are 16 bits wide (00_scope.md R5). Source text, signatures and label names are lists
of characters. -/

namespace Sys2Proof

/-- An 8-bit value: a general register, a memory cell, an opcode, a `d8` operand (00_scope.md R5, R8). -/
abbrev Byte := BitVec 8

/-- A 16-bit value: PC, SP, a register pair, an address, a `d16` operand (00_scope.md R5, R8). -/
abbrev Word := BitVec 16

/-- A piece of assembler text: a source text, a token, a label name, a signature (40_assembler.md R102, R107). -/
abbrev Text := List Char

end Sys2Proof
end

