-- ==== Sys2Proof/Machine/Bits.lean ====
section
/-! DEFINITION. Narrowing of integers to register width, the two halves of a 16-bit word, and the word of two halves
(00_scope.md R10, 10_state.md R21, R23). -/

namespace Sys2Proof

/-- What an 8-bit register or memory cell holds after it is given the integer `v`: `v mod 256`, the non-negative residue
(10_state.md R21). -/
def narrow8 (v : Int) : Byte := BitVec.ofInt 8 v

/-- What PC, SP or a pair holds after it is given the integer `v`: `v mod 65536` (10_state.md R21). -/
def narrow16 (v : Int) : Word := BitVec.ofInt 16 v

/-- `v div 256`: bits 15..8 (10_state.md R23). -/
def hiByte (v : Word) : Byte := BitVec.ofNat 8 (v.toNat / 256)

/-- `v mod 256`: bits 7..0 (10_state.md R23). -/
def loByte (v : Word) : Byte := BitVec.ofNat 8 (v.toNat % 256)

/-- `hi * 256 + lo` (10_state.md R23, 20_memory.md R55). -/
def mkWord (hi lo : Byte) : Word := BitVec.ofNat 16 (hi.toNat * 256 + lo.toNat)

end Sys2Proof
end

