-- ==== Sys2Proof/Config.lean ====
section
/-! DEFINITION. The parameters of 00_scope.md R6: what is fixed for one machine, and the texts the spec leaves free.

P4, P5 and P7 to P12 are fields of `Config`, plain data with every legal value the spec names, so a statement about all
states is a statement about every legal setting (assumption log 1). P6 is an argument of `run`. P1, P2 and P3 are FIXED and
stand where they are used.
The default settings are in `Sys2Proof/Machine/Defaults.lean`. -/

namespace Sys2Proof

/-- P7 OPERAND_SOURCE: where `step` takes the value of `d8`, `d16` and `a16` from (42_step_engine.md R166). -/
inductive OperandSource where
  /-- the value the assembler resolved for the record, `val(rec)` -/
  | record
  /-- the bytes in memory after PC, read when the step executes -/
  | memory
  deriving DecidableEq, Repr

/-- P8 AC_SUB: the three readings of the auxiliary carry of a subtraction that 41_alu_flags.md R146 names. -/
inductive AcSub where
  /-- the 8085's two's-complement rule: 1 when there is no borrow out of the low nibble -/
  | twosComplement
  /-- AC is cleared by every subtractive operation -/
  | cleared
  /-- the borrow sense: 1 when there is a borrow out of the low nibble -/
  | borrow
  deriving DecidableEq, Repr

/-- P10 UNRESOLVED_LINE_POLICY (40_assembler.md R130). -/
inductive UnresolvedLinePolicy where
  | tolerate
  | error
  deriving DecidableEq, Repr

/-- P11 MALFORMED_NUMERAL_POLICY (40_assembler.md R125). -/
inductive MalformedNumeralPolicy where
  | zero
  | diagnostic
  deriving DecidableEq, Repr

/-- P5 TSTATE: the T-state numbers that 48_timing.md R334 marks "gk", one field for each row of its table. The numbers the
source states (CALL 18, RET 10, JZ 10 and 7) are FIXED (00_scope.md R6) and so have no field. Rows of the table that name
several mnemonics have one field, but the seven conditional jumps that are not JZ share a field of their own.

DESIGN CHOICE (assumption log 3): the numbers are arbitrary. 48_timing.md R332 quotes DOC0 that memory forms cost more and that
not taken costs less, and 93_implementation_defined.md G7 lists these with what DOC0 fixes, while R6 and U2 fix the four
numbers only; no relation between the fields is required here or by `Config.wf`. -/
structure CostTable where
  movRR : Nat
  movRM : Nat
  movMR : Nat
  mviR : Nat
  mviM : Nat
  lxi : Nat
  lda : Nat
  sta : Nat
  lhld : Nat
  shld : Nat
  ldax : Nat
  stax : Nat
  xchg : Nat
  aluR : Nat
  aluM : Nat
  aluI : Nat
  inrDcrR : Nat
  inrDcrM : Nat
  inxDcx : Nat
  dad : Nat
  daa : Nat
  rotate : Nat
  carryOps : Nat
  jmp : Nat
  jccTaken : Nat
  jccNotTaken : Nat
  cccTaken : Nat
  cccNotTaken : Nat
  rccTaken : Nat
  rccNotTaken : Nat
  pchl : Nat
  rst : Nat
  push : Nat
  pop : Nat
  xthl : Nat
  sphl : Nat
  inOut : Nat
  eiDi : Nat
  rimSim : Nat
  nop : Nat
  hlt : Nat
  deriving DecidableEq, Repr

/-- P9 parseNumeral: the texts that are read otherwise than the strict grammar of 40_assembler.md R124 reads them, each with
its number or failure; one list for the digits before an `H`, one for a decimal token (assumption log 6). -/
structure NumeralReadings where
  hex : List (Text × Option Nat)
  dec : List (Text × Option Nat)
  deriving DecidableEq, Repr

/-- The CONFIG parameters of 00_scope.md R6, fixed for the life of a machine (42_step_engine.md R184). -/
structure Config where
  /-- P4: the signatures whose byte is not the one of 30_encoding.md R76 to R84, each named by that byte, with the byte it has
  instead (assumption log 2); lengths are no part of it (DESIGN CHOICE, assumption log 25) -/
  opcode : List (Byte × Byte)
  /-- P5 -/
  tstate : CostTable
  /-- P7 -/
  operandSource : OperandSource
  /-- P8 -/
  acSub : AcSub
  /-- P9 -/
  numerals : NumeralReadings
  /-- P10 -/
  unresolvedLine : UnresolvedLinePolicy
  /-- P11 -/
  malformedNumeral : MalformedNumeralPolicy
  /-- P12: `none` is the unbounded counter; `some w` a counter of `w` bits (assumption log 8) -/
  tstateWidth : Option Nat
  deriving DecidableEq, Repr

/-- The wording of assemble's message before its numbers: any value (93_implementation_defined.md U12; assumption log 17).
The arguments are `success` and the count of records. -/
opaque Config.messageBefore : Bool → Nat → Text

/-- The wording of assemble's message after its numbers: any value (U12; assumption log 17). -/
opaque Config.messageAfter : Bool → Nat → Text

/-- The line IN logs to the host, from the port number: any value (U13; assumption log 17). -/
opaque Config.inLogLine : Byte → Text

/-- The line OUT logs to the host, from the port number and A: any value (U13; assumption log 17). -/
opaque Config.outLogLine : Byte → Byte → Text

end Sys2Proof
end

