-- ==== Sys2Proof/Machine/Defaults.lean ====
section
/-! DEFINITION. The default setting of every CONFIG parameter (00_scope.md R6). -/

namespace Sys2Proof.Machine

/-- The default of P5: the numbers of 48_timing.md R334 marked "gk". -/
def defaultCosts : CostTable where
  movRR := 4
  movRM := 7
  movMR := 7
  mviR := 7
  mviM := 10
  lxi := 10
  lda := 13
  sta := 13
  lhld := 16
  shld := 16
  ldax := 7
  stax := 7
  xchg := 4
  aluR := 4
  aluM := 7
  aluI := 7
  inrDcrR := 4
  inrDcrM := 10
  inxDcx := 6
  dad := 10
  daa := 4
  rotate := 4
  carryOps := 4
  jmp := 10
  jccTaken := 10
  jccNotTaken := 7
  cccTaken := 18
  cccNotTaken := 9
  rccTaken := 12
  rccNotTaken := 6
  pchl := 6
  rst := 12
  push := 12
  pop := 10
  xthl := 16
  sphl := 6
  inOut := 10
  eiDi := 4
  rimSim := 4
  nop := 4
  hlt := 5

/-- The defaults of P4, P5 and P7 to P12 (00_scope.md R6, 30_encoding.md R76 to R84, 41_alu_flags.md R146, 48_timing.md R334,
40_assembler.md R124). -/
def defaultConfig : Config where
  opcode := []
  tstate := defaultCosts
  operandSource := .record
  acSub := .twosComplement
  numerals := ⟨[], []⟩
  unresolvedLine := .tolerate
  malformedNumeral := .zero
  tstateWidth := none

end Sys2Proof.Machine
end

