-- ==== Sys2Proof/Syntax.lean ====
section
/-! DEFINITION. The instructions: operand classes, the 246 instructions of spec/opcode_table.json, their structured view
`Form`, the shapes of opcode-table keys and the instruction records of the program table. -/

namespace Sys2Proof

/-- The seven 8-bit registers (10_state.md R20). -/
inductive Reg where
  | A | B | C | D | E | H | L
  deriving DecidableEq, Repr

/-- Operand class r-or-M: a register, or the memory byte addressed by HL (00_scope.md R11). -/
inductive Opnd where
  | reg (r : Reg)
  | mem
  deriving DecidableEq, Repr

/-- The register pairs BC, DE, HL (10_state.md R23). -/
inductive Pair where
  | BC | DE | HL
  deriving DecidableEq, Repr

/-- Operand class rp: a pair or SP (00_scope.md R11). -/
inductive Rp where
  | pair (p : Pair)
  | sp
  deriving DecidableEq, Repr

/-- Operand class rq: a pair or PSW (00_scope.md R11). -/
inductive Rq where
  | pair (p : Pair)
  | psw
  deriving DecidableEq, Repr

/-- The pairs LDAX and STAX can name (43_data_transfer.md R210, R211). -/
inductive IndPair where
  | BC | DE
  deriving DecidableEq, Repr

/-- The eight conditions (46_branch.md R270). -/
inductive Cond where
  | NZ | Z | NC | C | PO | PE | P | M
  deriving DecidableEq, Repr

/-- The eight operations of the ALU register block and of the immediate ALU group (30_encoding.md R71). -/
inductive AluOp where
  | add | adc | sub | sbb | ana | xra | ora | cmp
  deriving DecidableEq, Repr

/-- The structured view of an instruction: its mnemonic with its operands as data (30_encoding.md R71, R90). The immediate
ALU mnemonics ADI ACI SUI SBI ANI XRI ORI CPI are `alui`; the conditional jumps, calls and returns are `jcc`, `ccc`, `rcc`. -/
inductive Form where
  | mov (d s : Opnd)
  | mvi (d : Opnd) (d8 : Byte)
  | lxi (p : Rp) (d16 : Word)
  | lda (a16 : Word)
  | sta (a16 : Word)
  | lhld (a16 : Word)
  | shld (a16 : Word)
  | ldax (p : IndPair)
  | stax (p : IndPair)
  | xchg
  | alu (op : AluOp) (s : Opnd)
  | alui (op : AluOp) (d8 : Byte)
  | inr (d : Opnd)
  | dcr (d : Opnd)
  | inx (p : Rp)
  | dcx (p : Rp)
  | dad (p : Rp)
  | daa
  | rlc | rrc | ral | rar
  | cma | cmc | stc
  | jmp (a16 : Word)
  | jcc (c : Cond) (a16 : Word)
  | call (a16 : Word)
  | ccc (c : Cond) (a16 : Word)
  | ret
  | rcc (c : Cond)
  | pchl
  | rst (n : Fin 8)
  | push (q : Rq)
  | pop (q : Rq)
  | xthl | sphl
  | nop | ei | di | rim | sim
  | inPort (port : Byte)
  | outPort (port : Byte)
  | hlt
  deriving DecidableEq, Repr

/-- The instructions, one constructor for each row of spec/opcode_table.json, in the order of the
groups of 30_encoding.md R75. A constructor's
arguments are the operand bytes after the opcode: `d8` or `port` for byte 2, `d16` or `a16` for bytes 2 and 3. -/
inductive Instr where
  /-- MOV B,B: byte 0x40, rule R200. -/
  | movBB
  /-- MOV B,C: byte 0x41, rule R200. -/
  | movBC
  /-- MOV B,D: byte 0x42, rule R200. -/
  | movBD
  /-- MOV B,E: byte 0x43, rule R200. -/
  | movBE
  /-- MOV B,H: byte 0x44, rule R200. -/
  | movBH
  /-- MOV B,L: byte 0x45, rule R200. -/
  | movBL
  /-- MOV B,M: byte 0x46, rule R201. -/
  | movBM
  /-- MOV B,A: byte 0x47, rule R200. -/
  | movBA
  /-- MOV C,B: byte 0x48, rule R200. -/
  | movCB
  /-- MOV C,C: byte 0x49, rule R200. -/
  | movCC
  /-- MOV C,D: byte 0x4A, rule R200. -/
  | movCD
  /-- MOV C,E: byte 0x4B, rule R200. -/
  | movCE
  /-- MOV C,H: byte 0x4C, rule R200. -/
  | movCH
  /-- MOV C,L: byte 0x4D, rule R200. -/
  | movCL
  /-- MOV C,M: byte 0x4E, rule R201. -/
  | movCM
  /-- MOV C,A: byte 0x4F, rule R200. -/
  | movCA
  /-- MOV D,B: byte 0x50, rule R200. -/
  | movDB
  /-- MOV D,C: byte 0x51, rule R200. -/
  | movDC
  /-- MOV D,D: byte 0x52, rule R200. -/
  | movDD
  /-- MOV D,E: byte 0x53, rule R200. -/
  | movDE
  /-- MOV D,H: byte 0x54, rule R200. -/
  | movDH
  /-- MOV D,L: byte 0x55, rule R200. -/
  | movDL
  /-- MOV D,M: byte 0x56, rule R201. -/
  | movDM
  /-- MOV D,A: byte 0x57, rule R200. -/
  | movDA
  /-- MOV E,B: byte 0x58, rule R200. -/
  | movEB
  /-- MOV E,C: byte 0x59, rule R200. -/
  | movEC
  /-- MOV E,D: byte 0x5A, rule R200. -/
  | movED
  /-- MOV E,E: byte 0x5B, rule R200. -/
  | movEE
  /-- MOV E,H: byte 0x5C, rule R200. -/
  | movEH
  /-- MOV E,L: byte 0x5D, rule R200. -/
  | movEL
  /-- MOV E,M: byte 0x5E, rule R201. -/
  | movEM
  /-- MOV E,A: byte 0x5F, rule R200. -/
  | movEA
  /-- MOV H,B: byte 0x60, rule R200. -/
  | movHB
  /-- MOV H,C: byte 0x61, rule R200. -/
  | movHC
  /-- MOV H,D: byte 0x62, rule R200. -/
  | movHD
  /-- MOV H,E: byte 0x63, rule R200. -/
  | movHE
  /-- MOV H,H: byte 0x64, rule R200. -/
  | movHH
  /-- MOV H,L: byte 0x65, rule R200. -/
  | movHL
  /-- MOV H,M: byte 0x66, rule R201. -/
  | movHM
  /-- MOV H,A: byte 0x67, rule R200. -/
  | movHA
  /-- MOV L,B: byte 0x68, rule R200. -/
  | movLB
  /-- MOV L,C: byte 0x69, rule R200. -/
  | movLC
  /-- MOV L,D: byte 0x6A, rule R200. -/
  | movLD
  /-- MOV L,E: byte 0x6B, rule R200. -/
  | movLE
  /-- MOV L,H: byte 0x6C, rule R200. -/
  | movLH
  /-- MOV L,L: byte 0x6D, rule R200. -/
  | movLL
  /-- MOV L,M: byte 0x6E, rule R201. -/
  | movLM
  /-- MOV L,A: byte 0x6F, rule R200. -/
  | movLA
  /-- MOV M,B: byte 0x70, rule R202. -/
  | movMB
  /-- MOV M,C: byte 0x71, rule R202. -/
  | movMC
  /-- MOV M,D: byte 0x72, rule R202. -/
  | movMD
  /-- MOV M,E: byte 0x73, rule R202. -/
  | movME
  /-- MOV M,H: byte 0x74, rule R202. -/
  | movMH
  /-- MOV M,L: byte 0x75, rule R202. -/
  | movML
  /-- MOV M,A: byte 0x77, rule R202. -/
  | movMA
  /-- MOV A,B: byte 0x78, rule R200. -/
  | movAB
  /-- MOV A,C: byte 0x79, rule R200. -/
  | movAC
  /-- MOV A,D: byte 0x7A, rule R200. -/
  | movAD
  /-- MOV A,E: byte 0x7B, rule R200. -/
  | movAE
  /-- MOV A,H: byte 0x7C, rule R200. -/
  | movAH
  /-- MOV A,L: byte 0x7D, rule R200. -/
  | movAL
  /-- MOV A,M: byte 0x7E, rule R201. -/
  | movAM
  /-- MOV A,A: byte 0x7F, rule R200. -/
  | movAA
  /-- MVI B,d8: byte 0x06, rule R203. -/
  | mviB (d8 : Byte)
  /-- MVI C,d8: byte 0x0E, rule R203. -/
  | mviC (d8 : Byte)
  /-- MVI D,d8: byte 0x16, rule R203. -/
  | mviD (d8 : Byte)
  /-- MVI E,d8: byte 0x1E, rule R203. -/
  | mviE (d8 : Byte)
  /-- MVI H,d8: byte 0x26, rule R203. -/
  | mviH (d8 : Byte)
  /-- MVI L,d8: byte 0x2E, rule R203. -/
  | mviL (d8 : Byte)
  /-- MVI M,d8: byte 0x36, rule R204. -/
  | mviM (d8 : Byte)
  /-- MVI A,d8: byte 0x3E, rule R203. -/
  | mviA (d8 : Byte)
  /-- LXI B,d16: byte 0x01, rule R205. -/
  | lxiB (d16 : Word)
  /-- LXI D,d16: byte 0x11, rule R205. -/
  | lxiD (d16 : Word)
  /-- LXI H,d16: byte 0x21, rule R205. -/
  | lxiH (d16 : Word)
  /-- LXI SP,d16: byte 0x31, rule R205. -/
  | lxiSP (d16 : Word)
  /-- LDA a16: byte 0x3A, rule R206. -/
  | lda (a16 : Word)
  /-- STA a16: byte 0x32, rule R207. -/
  | sta (a16 : Word)
  /-- LHLD a16: byte 0x2A, rule R208. -/
  | lhld (a16 : Word)
  /-- SHLD a16: byte 0x22, rule R209. -/
  | shld (a16 : Word)
  /-- LDAX B: byte 0x0A, rule R210. -/
  | ldaxB
  /-- LDAX D: byte 0x1A, rule R210. -/
  | ldaxD
  /-- STAX B: byte 0x02, rule R211. -/
  | staxB
  /-- STAX D: byte 0x12, rule R211. -/
  | staxD
  /-- XCHG: byte 0xEB, rule R212. -/
  | xchg
  /-- ADD B: byte 0x80, rule R220. -/
  | addB
  /-- ADD C: byte 0x81, rule R220. -/
  | addC
  /-- ADD D: byte 0x82, rule R220. -/
  | addD
  /-- ADD E: byte 0x83, rule R220. -/
  | addE
  /-- ADD H: byte 0x84, rule R220. -/
  | addH
  /-- ADD L: byte 0x85, rule R220. -/
  | addL
  /-- ADD M: byte 0x86, rule R220. -/
  | addM
  /-- ADD A: byte 0x87, rule R220. -/
  | addA
  /-- ADC B: byte 0x88, rule R221. -/
  | adcB
  /-- ADC C: byte 0x89, rule R221. -/
  | adcC
  /-- ADC D: byte 0x8A, rule R221. -/
  | adcD
  /-- ADC E: byte 0x8B, rule R221. -/
  | adcE
  /-- ADC H: byte 0x8C, rule R221. -/
  | adcH
  /-- ADC L: byte 0x8D, rule R221. -/
  | adcL
  /-- ADC M: byte 0x8E, rule R221. -/
  | adcM
  /-- ADC A: byte 0x8F, rule R221. -/
  | adcA
  /-- SUB B: byte 0x90, rule R222. -/
  | subB
  /-- SUB C: byte 0x91, rule R222. -/
  | subC
  /-- SUB D: byte 0x92, rule R222. -/
  | subD
  /-- SUB E: byte 0x93, rule R222. -/
  | subE
  /-- SUB H: byte 0x94, rule R222. -/
  | subH
  /-- SUB L: byte 0x95, rule R222. -/
  | subL
  /-- SUB M: byte 0x96, rule R222. -/
  | subM
  /-- SUB A: byte 0x97, rule R222. -/
  | subA
  /-- SBB B: byte 0x98, rule R223. -/
  | sbbB
  /-- SBB C: byte 0x99, rule R223. -/
  | sbbC
  /-- SBB D: byte 0x9A, rule R223. -/
  | sbbD
  /-- SBB E: byte 0x9B, rule R223. -/
  | sbbE
  /-- SBB H: byte 0x9C, rule R223. -/
  | sbbH
  /-- SBB L: byte 0x9D, rule R223. -/
  | sbbL
  /-- SBB M: byte 0x9E, rule R223. -/
  | sbbM
  /-- SBB A: byte 0x9F, rule R223. -/
  | sbbA
  /-- CMP B: byte 0xB8, rule R224. -/
  | cmpB
  /-- CMP C: byte 0xB9, rule R224. -/
  | cmpC
  /-- CMP D: byte 0xBA, rule R224. -/
  | cmpD
  /-- CMP E: byte 0xBB, rule R224. -/
  | cmpE
  /-- CMP H: byte 0xBC, rule R224. -/
  | cmpH
  /-- CMP L: byte 0xBD, rule R224. -/
  | cmpL
  /-- CMP M: byte 0xBE, rule R224. -/
  | cmpM
  /-- CMP A: byte 0xBF, rule R224. -/
  | cmpA
  /-- ADI d8: byte 0xC6, rule R225. -/
  | adi (d8 : Byte)
  /-- ACI d8: byte 0xCE, rule R226. -/
  | aci (d8 : Byte)
  /-- SUI d8: byte 0xD6, rule R227. -/
  | sui (d8 : Byte)
  /-- SBI d8: byte 0xDE, rule R228. -/
  | sbi (d8 : Byte)
  /-- CPI d8: byte 0xFE, rule R229. -/
  | cpi (d8 : Byte)
  /-- INR B: byte 0x04, rule R230. -/
  | inrB
  /-- INR C: byte 0x0C, rule R230. -/
  | inrC
  /-- INR D: byte 0x14, rule R230. -/
  | inrD
  /-- INR E: byte 0x1C, rule R230. -/
  | inrE
  /-- INR H: byte 0x24, rule R230. -/
  | inrH
  /-- INR L: byte 0x2C, rule R230. -/
  | inrL
  /-- INR M: byte 0x34, rule R230. -/
  | inrM
  /-- INR A: byte 0x3C, rule R230. -/
  | inrA
  /-- DCR B: byte 0x05, rule R231. -/
  | dcrB
  /-- DCR C: byte 0x0D, rule R231. -/
  | dcrC
  /-- DCR D: byte 0x15, rule R231. -/
  | dcrD
  /-- DCR E: byte 0x1D, rule R231. -/
  | dcrE
  /-- DCR H: byte 0x25, rule R231. -/
  | dcrH
  /-- DCR L: byte 0x2D, rule R231. -/
  | dcrL
  /-- DCR M: byte 0x35, rule R231. -/
  | dcrM
  /-- DCR A: byte 0x3D, rule R231. -/
  | dcrA
  /-- INX B: byte 0x03, rule R232. -/
  | inxB
  /-- INX D: byte 0x13, rule R232. -/
  | inxD
  /-- INX H: byte 0x23, rule R232. -/
  | inxH
  /-- INX SP: byte 0x33, rule R232. -/
  | inxSP
  /-- DCX B: byte 0x0B, rule R233. -/
  | dcxB
  /-- DCX D: byte 0x1B, rule R233. -/
  | dcxD
  /-- DCX H: byte 0x2B, rule R233. -/
  | dcxH
  /-- DCX SP: byte 0x3B, rule R233. -/
  | dcxSP
  /-- DAD B: byte 0x09, rule R234. -/
  | dadB
  /-- DAD D: byte 0x19, rule R234. -/
  | dadD
  /-- DAD H: byte 0x29, rule R234. -/
  | dadH
  /-- DAD SP: byte 0x39, rule R234. -/
  | dadSP
  /-- DAA: byte 0x27, rule R235. -/
  | daa
  /-- ANA B: byte 0xA0, rule R250. -/
  | anaB
  /-- ANA C: byte 0xA1, rule R250. -/
  | anaC
  /-- ANA D: byte 0xA2, rule R250. -/
  | anaD
  /-- ANA E: byte 0xA3, rule R250. -/
  | anaE
  /-- ANA H: byte 0xA4, rule R250. -/
  | anaH
  /-- ANA L: byte 0xA5, rule R250. -/
  | anaL
  /-- ANA M: byte 0xA6, rule R250. -/
  | anaM
  /-- ANA A: byte 0xA7, rule R250. -/
  | anaA
  /-- ORA B: byte 0xB0, rule R251. -/
  | oraB
  /-- ORA C: byte 0xB1, rule R251. -/
  | oraC
  /-- ORA D: byte 0xB2, rule R251. -/
  | oraD
  /-- ORA E: byte 0xB3, rule R251. -/
  | oraE
  /-- ORA H: byte 0xB4, rule R251. -/
  | oraH
  /-- ORA L: byte 0xB5, rule R251. -/
  | oraL
  /-- ORA M: byte 0xB6, rule R251. -/
  | oraM
  /-- ORA A: byte 0xB7, rule R251. -/
  | oraA
  /-- XRA B: byte 0xA8, rule R252. -/
  | xraB
  /-- XRA C: byte 0xA9, rule R252. -/
  | xraC
  /-- XRA D: byte 0xAA, rule R252. -/
  | xraD
  /-- XRA E: byte 0xAB, rule R252. -/
  | xraE
  /-- XRA H: byte 0xAC, rule R252. -/
  | xraH
  /-- XRA L: byte 0xAD, rule R252. -/
  | xraL
  /-- XRA M: byte 0xAE, rule R252. -/
  | xraM
  /-- XRA A: byte 0xAF, rule R252. -/
  | xraA
  /-- ANI d8: byte 0xE6, rule R253. -/
  | ani (d8 : Byte)
  /-- ORI d8: byte 0xF6, rule R254. -/
  | ori (d8 : Byte)
  /-- XRI d8: byte 0xEE, rule R255. -/
  | xri (d8 : Byte)
  /-- RLC: byte 0x07, rule R256. -/
  | rlc
  /-- RRC: byte 0x0F, rule R257. -/
  | rrc
  /-- RAL: byte 0x17, rule R258. -/
  | ral
  /-- RAR: byte 0x1F, rule R259. -/
  | rar
  /-- CMA: byte 0x2F, rule R260. -/
  | cma
  /-- CMC: byte 0x3F, rule R261. -/
  | cmc
  /-- STC: byte 0x37, rule R262. -/
  | stc
  /-- RNZ: byte 0xC0, rule R290. -/
  | rnz
  /-- JNZ a16: byte 0xC2, rule R272. -/
  | jnz (a16 : Word)
  /-- JMP a16: byte 0xC3, rule R271. -/
  | jmp (a16 : Word)
  /-- CNZ a16: byte 0xC4, rule R281. -/
  | cnz (a16 : Word)
  /-- RST 0: byte 0xC7, rule R299. -/
  | rst0
  /-- RZ: byte 0xC8, rule R291. -/
  | rz
  /-- RET: byte 0xC9, rule R289. -/
  | ret
  /-- JZ a16: byte 0xCA, rule R273. -/
  | jz (a16 : Word)
  /-- CZ a16: byte 0xCC, rule R282. -/
  | cz (a16 : Word)
  /-- CALL a16: byte 0xCD, rule R280. -/
  | call (a16 : Word)
  /-- RST 1: byte 0xCF, rule R299. -/
  | rst1
  /-- RNC: byte 0xD0, rule R292. -/
  | rnc
  /-- JNC a16: byte 0xD2, rule R274. -/
  | jnc (a16 : Word)
  /-- CNC a16: byte 0xD4, rule R283. -/
  | cnc (a16 : Word)
  /-- RST 2: byte 0xD7, rule R299. -/
  | rst2
  /-- RC: byte 0xD8, rule R293. -/
  | rc
  /-- JC a16: byte 0xDA, rule R275. -/
  | jc (a16 : Word)
  /-- CC a16: byte 0xDC, rule R284. -/
  | cc (a16 : Word)
  /-- RST 3: byte 0xDF, rule R299. -/
  | rst3
  /-- RPO: byte 0xE0, rule R294. -/
  | rpo
  /-- JPO a16: byte 0xE2, rule R276. -/
  | jpo (a16 : Word)
  /-- CPO a16: byte 0xE4, rule R285. -/
  | cpo (a16 : Word)
  /-- RST 4: byte 0xE7, rule R299. -/
  | rst4
  /-- RPE: byte 0xE8, rule R295. -/
  | rpe
  /-- PCHL: byte 0xE9, rule R298. -/
  | pchl
  /-- JPE a16: byte 0xEA, rule R277. -/
  | jpe (a16 : Word)
  /-- CPE a16: byte 0xEC, rule R286. -/
  | cpe (a16 : Word)
  /-- RST 5: byte 0xEF, rule R299. -/
  | rst5
  /-- RP: byte 0xF0, rule R296. -/
  | rp
  /-- JP a16: byte 0xF2, rule R278. -/
  | jp (a16 : Word)
  /-- CP a16: byte 0xF4, rule R287. -/
  | cp (a16 : Word)
  /-- RST 6: byte 0xF7, rule R299. -/
  | rst6
  /-- RM: byte 0xF8, rule R297. -/
  | rm
  /-- JM a16: byte 0xFA, rule R279. -/
  | jm (a16 : Word)
  /-- CM a16: byte 0xFC, rule R288. -/
  | cm (a16 : Word)
  /-- RST 7: byte 0xFF, rule R299. -/
  | rst7
  /-- PUSH B: byte 0xC5, rule R310. -/
  | pushB
  /-- PUSH D: byte 0xD5, rule R310. -/
  | pushD
  /-- PUSH H: byte 0xE5, rule R310. -/
  | pushH
  /-- PUSH PSW: byte 0xF5, rule R311. -/
  | pushPSW
  /-- POP B: byte 0xC1, rule R312. -/
  | popB
  /-- POP D: byte 0xD1, rule R312. -/
  | popD
  /-- POP H: byte 0xE1, rule R312. -/
  | popH
  /-- POP PSW: byte 0xF1, rule R313. -/
  | popPSW
  /-- XTHL: byte 0xE3, rule R314. -/
  | xthl
  /-- SPHL: byte 0xF9, rule R315. -/
  | sphl
  /-- NOP: byte 0x00, rule R316. -/
  | nop
  /-- EI: byte 0xFB, rule R317. -/
  | ei
  /-- DI: byte 0xF3, rule R318. -/
  | di
  /-- IN port: byte 0xDB, rule R319. -/
  | inPort (port : Byte)
  /-- OUT port: byte 0xD3, rule R320. -/
  | outPort (port : Byte)
  /-- HLT: byte 0x76, rule R321. -/
  | hlt
  /-- RIM: byte 0x20, rule R322. -/
  | rim
  /-- SIM: byte 0x30, rule R323. -/
  | sim
  deriving DecidableEq, Repr

/-- The five shapes of keys of the opcode table (40_assembler.md R102): which part of a line is in the key, and whether one
value operand follows it. -/
inductive KeyShape where
  | K0 | K0v | K1 | K1v | K2
  deriving DecidableEq, Repr

/-- An instruction record of the program table (10_state.md R36, R37). `instr` is the instruction the record names, with the
value the assembler resolved for its operand, `val(rec)`, already in it (42_step_engine.md R165, R166; assumption log 13). -/
structure Record where
  address : Word
  mnemonic : Text
  operands : List Text
  opcode : Byte
  instr : Instr
  sourceLine : Nat
  deriving DecidableEq, Repr

end Sys2Proof
end

