-- ==== Sys2Proof/Machine/State.lean ====
section
/-! DEFINITION. The state of the CORE (10_state.md), the reasons a step can stop, and the state after reset (R41). -/

namespace Sys2Proof.Machine

/-- The five flags (10_state.md R27). -/
structure Flags where
  s : Bool
  z : Bool
  ac : Bool
  p : Bool
  cy : Bool
  deriving DecidableEq, Repr

/-- The memory store: the cells that do not hold 0, in rising order of their addresses (20_memory.md R50; the canonical form
is `Memory.wf` of Machine/Ops.lean). -/
abbrev Memory := List Host.Cell

/-- The label table, a finite map as a list of names with their addresses, each name once (10_state.md R38). -/
abbrev LabelTable := List (Text × Word)

/-- Everything the spec gives the machine between two operations (10_state.md), and the machine's configuration `cfg`,
which no operation writes (assumption log 1). -/
structure State where
  /-- the accumulator (R20) -/
  a : Byte
  b : Byte
  c : Byte
  d : Byte
  e : Byte
  h : Byte
  l : Byte
  /-- the program counter (R25) -/
  pc : Word
  /-- the stack pointer (R26) -/
  sp : Word
  flags : Flags
  /-- the run state: true is `halted` (R31) -/
  halted : Bool
  /-- the cumulative T-state counter (R33) -/
  tStates : Nat
  mem : Memory
  /-- the program table, in source order (R36) -/
  prog : List Record
  labels : LabelTable
  /-- the parameters of 00_scope.md R6; the model's own field -/
  cfg : Config
  deriving DecidableEq, Repr

/-- Why a step stops with a fault: the one exception of the engine (60_exceptions.md R350). -/
inductive Fault where
  /-- `raise StepFailure`: raised by the fetch of a step that finds no record at PC and no 0x76 byte there; the state stays
  as it was (60_exceptions.md R350). Safe: it is the spec's own failure. -/
  | stepFailure
  deriving DecidableEq, Repr

/-- Why an operation is refused. -/
inductive Refusal where
  /-- Raised by `exec` for an instruction that has no meaning yet. Safe. No arm raises it. -/
  | notModelled (mnemonic : String)
  /-- Raised by the host operation `assemble` for a text whose image would pass 0xFFFF (40_assembler.md R134). Safe. -/
  | imageTooLarge
  deriving DecidableEq, Repr

/-- The state after `reset` (10_state.md R41); the configuration is the default one (00_scope.md R6). -/
def State.reset : State where
  a := 0x00
  b := 0x00
  c := 0x00
  d := 0x00
  e := 0x00
  h := 0x00
  l := 0x00
  pc := 0x0000
  sp := 0xFFFF
  flags := ⟨false, false, false, false, false⟩
  halted := false
  tStates := 0
  mem := []
  prog := []
  labels := []
  cfg := defaultConfig

end Sys2Proof.Machine
end

