-- ==== Sys2Proof/Machine/Flags.lean ====
section
/-! DEFINITION. The ALU's operations as functions from operands and incoming flags to a result and outgoing flags
(41_alu_flags.md), DAA's adjustment (44_arithmetic.md R235) and the rotates (45_logical.md R256 to R259). Each computes the
exact integer and narrows it at the end. -/

namespace Sys2Proof.Machine

/-- The number of one bits of a byte. -/
def onesCount (v : Byte) : Nat :=
  (v.getLsbD 0).toNat + (v.getLsbD 1).toNat + (v.getLsbD 2).toNat + (v.getLsbD 3).toNat
    + (v.getLsbD 4).toNat + (v.getLsbD 5).toNat + (v.getLsbD 6).toNat + (v.getLsbD 7).toNat

/-- `parity8(v)`: true when the number of one bits is even (41_alu_flags.md R141). -/
def parity8 (v : Byte) : Bool := decide (onesCount v % 2 = 0)

/-- `ZSP(res)`: Z, S and P from the masked result; AC and CY as they were (41_alu_flags.md R142). -/
def zsp (res : Byte) (f : Flags) : Flags :=
  { f with z := decide (res = 0), s := res.getLsbD 7, p := parity8 res }

/-- `CarryOf(r)`: the unmasked result exceeds 0xFF or is negative (41_alu_flags.md R142). -/
def carryOf (r : Int) : Bool := decide (r > 0xFF ∨ r < 0)

/-- The low nibble of a byte as a number, `v & 0xF`. -/
def lowNibble (v : Byte) : Nat := (v &&& 0xF).toNat

/-- Carry out of bit 3 of an addition (41_alu_flags.md R143, R145). -/
def acAdd (a b : Byte) (cin : Bool) : Bool := decide (lowNibble a + lowNibble b + cin.toNat > 0xF)

/-- `AC_SUB(a, b, bin)` under each of the three readings of parameter P8 (41_alu_flags.md R146). -/
def acSubtract (reading : AcSub) (a b : Byte) (bin : Bool) : Bool :=
  match reading with
  | .twosComplement => decide (lowNibble a + lowNibble (~~~b) + (1 - bin.toNat) > 0xF)
  | .cleared => false
  | .borrow => decide (lowNibble a < lowNibble b + bin.toNat)

/-- `ADD8(a, b, cin)` (41_alu_flags.md R143). -/
def add8 (a b : Byte) (cin : Bool) (f : Flags) : Byte × Flags :=
  let r : Int := a.toNat + b.toNat + cin.toNat
  let res := narrow8 r
  (res, zsp res { f with cy := carryOf r, ac := acAdd a b cin })

/-- `SUB8(a, b, bin)`; CY is a borrow flag (41_alu_flags.md R144). -/
def sub8 (reading : AcSub) (a b : Byte) (bin : Bool) (f : Flags) : Byte × Flags :=
  let r : Int := a.toNat - b.toNat - bin.toNat
  let res := narrow8 r
  (res, zsp res { f with cy := carryOf r, ac := acSubtract reading a b bin })

/-- `INC8(v)`: CY unchanged (41_alu_flags.md R147). -/
def inc8 (v : Byte) (f : Flags) : Byte × Flags :=
  let res := narrow8 (v.toNat + 1)
  (res, zsp res { f with ac := acAdd v 1 false })

/-- `DEC8(v)`: CY unchanged (41_alu_flags.md R147). -/
def dec8 (reading : AcSub) (v : Byte) (f : Flags) : Byte × Flags :=
  let res := narrow8 (v.toNat - 1)
  (res, zsp res { f with ac := acSubtract reading v 1 false })

/-- The flags after a boolean operation with result `res`: CY and AC cleared (41_alu_flags.md R148). -/
def logicFlags (res : Byte) (f : Flags) : Flags := zsp res { f with cy := false, ac := false }

/-- The ALU group: the new A and the new flags. CMP computes the subtraction and keeps A (44_arithmetic.md R220 to R229,
45_logical.md R250 to R255). -/
def aluResult (reading : AcSub) (op : AluOp) (a v : Byte) (f : Flags) : Byte × Flags :=
  match op with
  | .add => add8 a v false f
  | .adc => add8 a v f.cy f
  | .sub => sub8 reading a v false f
  | .sbb => sub8 reading a v f.cy f
  | .ana => (a &&& v, logicFlags (a &&& v) f)
  | .xra => (a ^^^ v, logicFlags (a ^^^ v) f)
  | .ora => (a ||| v, logicFlags (a ||| v) f)
  | .cmp => (a, (sub8 reading a v false f).2)

/-- DAA's low-nibble correction applies (44_arithmetic.md R235). -/
def daaLow (a : Byte) (f : Flags) : Bool := decide (a.toNat % 16 > 9) || f.ac

/-- DAA's high-nibble correction applies; the last disjunct is the "borderline case" (44_arithmetic.md R235). -/
def daaHigh (a : Byte) (f : Flags) : Bool :=
  decide (a.toNat / 16 > 9) || f.cy || (decide (a.toNat / 16 ≥ 9) && decide (a.toNat % 16 > 9))

/-- What DAA adds to A (44_arithmetic.md R235). -/
def daaCorrection (a : Byte) (f : Flags) : Byte :=
  narrow8 ((if daaLow a f then 0x06 else 0) + (if daaHigh a f then 0x60 else 0))

/-- DAA: the adjusted A and the flags (44_arithmetic.md R235). -/
def daaResult (a : Byte) (f : Flags) : Byte × Flags :=
  let corr := daaCorrection a f
  let res := narrow8 (a.toNat + corr.toNat)
  (res, zsp res { f with ac := acAdd a corr false, cy := f.cy || daaHigh a f })

/-- DAD's 16-bit sum and carry (41_alu_flags.md R149, 44_arithmetic.md R234). -/
def dadResult (hl v : Word) : Word × Bool :=
  let r : Int := hl.toNat + v.toNat
  (narrow16 r, decide (r > 0xFFFF))

/-- RLC: the rotated A and the new CY (45_logical.md R256). -/
def rlcResult (a : Byte) : Byte × Bool :=
  let b7 := a.getLsbD 7
  (narrow8 ((a.toNat * 2) % 256 + b7.toNat), b7)

/-- RRC (45_logical.md R257). -/
def rrcResult (a : Byte) : Byte × Bool :=
  let b0 := a.getLsbD 0
  (narrow8 (a.toNat / 2 + 128 * b0.toNat), b0)

/-- RAL: through the incoming CY (45_logical.md R258). -/
def ralResult (a : Byte) (cy : Bool) : Byte × Bool :=
  (narrow8 ((a.toNat * 2) % 256 + cy.toNat), a.getLsbD 7)

/-- RAR: through the incoming CY (45_logical.md R259). -/
def rarResult (a : Byte) (cy : Bool) : Byte × Bool :=
  (narrow8 (a.toNat / 2 + 128 * cy.toNat), a.getLsbD 0)

/-- The flag byte `S Z 0 AC 0 P 1 CY` (10_state.md R28). -/
def flagByte (f : Flags) : Byte :=
  narrow8 (f.s.toNat * 128 + f.z.toNat * 64 + f.ac.toNat * 16 + f.p.toNat * 4 + 2 + f.cy.toNat)

/-- The flags of a popped flag byte; bits 5, 3 and 1 are ignored (47_stack_control.md R313). -/
def unpackFlags (v : Byte) : Flags where
  s := v.getLsbD 7
  z := v.getLsbD 6
  ac := v.getLsbD 4
  p := v.getLsbD 2
  cy := v.getLsbD 0

/-- `cond(cc)` (46_branch.md R270). -/
def condHolds (f : Flags) : Cond → Bool
  | .NZ => !f.z
  | .Z => f.z
  | .NC => !f.cy
  | .C => f.cy
  | .PO => !f.p
  | .PE => f.p
  | .P => !f.s
  | .M => f.s

end Sys2Proof.Machine
end

