-- ==== Sys2Proof/Decode.lean ====
section
/-! DEFINITION. The decoder and, after it, the encoder (30_encoding.md R70 to R89). The decoder is the opcode map of R86,
read row by row; the encoder is written from the bit patterns and byte formulas of R71 and R76 to R84. -/

namespace Sys2Proof

/-- Why bytes are no instruction. -/
inductive DecodeError where
  /-- the bytes end before the instruction does -/
  | truncated
  /-- the first byte is one of the ten of 30_encoding.md R87 -/
  | undefinedOpcode (b : Byte)
  deriving DecidableEq, Repr

/-- What an opcode byte stands for: the instruction still waiting for its operand, in the three formats of 30_encoding.md
R70. -/
inductive OpcodeRow where
  /-- F1: no operand byte -/
  | bare (i : Instr)
  /-- F2: byte 2 is the operand -/
  | byteOp (f : Byte → Instr)
  /-- F3: bytes 2 (low) and 3 (high) are the operand -/
  | wordOp (f : Word → Instr)

/-- Row 0x of the opcode map (30_encoding.md R86). -/
def opcodeRow0 : List (Option OpcodeRow) :=
  [some (.bare .nop), some (.wordOp .lxiB), some (.bare .staxB),
   some (.bare .inxB), some (.bare .inrB), some (.bare .dcrB),
   some (.byteOp .mviB), some (.bare .rlc), none,
   some (.bare .dadB), some (.bare .ldaxB), some (.bare .dcxB),
   some (.bare .inrC), some (.bare .dcrC), some (.byteOp .mviC),
   some (.bare .rrc)]

/-- Row 1x of the opcode map (30_encoding.md R86). -/
def opcodeRow1 : List (Option OpcodeRow) :=
  [none, some (.wordOp .lxiD), some (.bare .staxD),
   some (.bare .inxD), some (.bare .inrD), some (.bare .dcrD),
   some (.byteOp .mviD), some (.bare .ral), none,
   some (.bare .dadD), some (.bare .ldaxD), some (.bare .dcxD),
   some (.bare .inrE), some (.bare .dcrE), some (.byteOp .mviE),
   some (.bare .rar)]

/-- Row 2x of the opcode map (30_encoding.md R86). -/
def opcodeRow2 : List (Option OpcodeRow) :=
  [some (.bare .rim), some (.wordOp .lxiH), some (.wordOp .shld),
   some (.bare .inxH), some (.bare .inrH), some (.bare .dcrH),
   some (.byteOp .mviH), some (.bare .daa), none,
   some (.bare .dadH), some (.wordOp .lhld), some (.bare .dcxH),
   some (.bare .inrL), some (.bare .dcrL), some (.byteOp .mviL),
   some (.bare .cma)]

/-- Row 3x of the opcode map (30_encoding.md R86). -/
def opcodeRow3 : List (Option OpcodeRow) :=
  [some (.bare .sim), some (.wordOp .lxiSP), some (.wordOp .sta),
   some (.bare .inxSP), some (.bare .inrM), some (.bare .dcrM),
   some (.byteOp .mviM), some (.bare .stc), none,
   some (.bare .dadSP), some (.wordOp .lda), some (.bare .dcxSP),
   some (.bare .inrA), some (.bare .dcrA), some (.byteOp .mviA),
   some (.bare .cmc)]

/-- Row 4x of the opcode map (30_encoding.md R86). -/
def opcodeRow4 : List (Option OpcodeRow) :=
  [some (.bare .movBB), some (.bare .movBC), some (.bare .movBD),
   some (.bare .movBE), some (.bare .movBH), some (.bare .movBL),
   some (.bare .movBM), some (.bare .movBA), some (.bare .movCB),
   some (.bare .movCC), some (.bare .movCD), some (.bare .movCE),
   some (.bare .movCH), some (.bare .movCL), some (.bare .movCM),
   some (.bare .movCA)]

/-- Row 5x of the opcode map (30_encoding.md R86). -/
def opcodeRow5 : List (Option OpcodeRow) :=
  [some (.bare .movDB), some (.bare .movDC), some (.bare .movDD),
   some (.bare .movDE), some (.bare .movDH), some (.bare .movDL),
   some (.bare .movDM), some (.bare .movDA), some (.bare .movEB),
   some (.bare .movEC), some (.bare .movED), some (.bare .movEE),
   some (.bare .movEH), some (.bare .movEL), some (.bare .movEM),
   some (.bare .movEA)]

/-- Row 6x of the opcode map (30_encoding.md R86). -/
def opcodeRow6 : List (Option OpcodeRow) :=
  [some (.bare .movHB), some (.bare .movHC), some (.bare .movHD),
   some (.bare .movHE), some (.bare .movHH), some (.bare .movHL),
   some (.bare .movHM), some (.bare .movHA), some (.bare .movLB),
   some (.bare .movLC), some (.bare .movLD), some (.bare .movLE),
   some (.bare .movLH), some (.bare .movLL), some (.bare .movLM),
   some (.bare .movLA)]

/-- Row 7x of the opcode map (30_encoding.md R86). -/
def opcodeRow7 : List (Option OpcodeRow) :=
  [some (.bare .movMB), some (.bare .movMC), some (.bare .movMD),
   some (.bare .movME), some (.bare .movMH), some (.bare .movML),
   some (.bare .hlt), some (.bare .movMA), some (.bare .movAB),
   some (.bare .movAC), some (.bare .movAD), some (.bare .movAE),
   some (.bare .movAH), some (.bare .movAL), some (.bare .movAM),
   some (.bare .movAA)]

/-- Row 8x of the opcode map (30_encoding.md R86). -/
def opcodeRow8 : List (Option OpcodeRow) :=
  [some (.bare .addB), some (.bare .addC), some (.bare .addD),
   some (.bare .addE), some (.bare .addH), some (.bare .addL),
   some (.bare .addM), some (.bare .addA), some (.bare .adcB),
   some (.bare .adcC), some (.bare .adcD), some (.bare .adcE),
   some (.bare .adcH), some (.bare .adcL), some (.bare .adcM),
   some (.bare .adcA)]

/-- Row 9x of the opcode map (30_encoding.md R86). -/
def opcodeRow9 : List (Option OpcodeRow) :=
  [some (.bare .subB), some (.bare .subC), some (.bare .subD),
   some (.bare .subE), some (.bare .subH), some (.bare .subL),
   some (.bare .subM), some (.bare .subA), some (.bare .sbbB),
   some (.bare .sbbC), some (.bare .sbbD), some (.bare .sbbE),
   some (.bare .sbbH), some (.bare .sbbL), some (.bare .sbbM),
   some (.bare .sbbA)]

/-- Row Ax of the opcode map (30_encoding.md R86). -/
def opcodeRowA : List (Option OpcodeRow) :=
  [some (.bare .anaB), some (.bare .anaC), some (.bare .anaD),
   some (.bare .anaE), some (.bare .anaH), some (.bare .anaL),
   some (.bare .anaM), some (.bare .anaA), some (.bare .xraB),
   some (.bare .xraC), some (.bare .xraD), some (.bare .xraE),
   some (.bare .xraH), some (.bare .xraL), some (.bare .xraM),
   some (.bare .xraA)]

/-- Row Bx of the opcode map (30_encoding.md R86). -/
def opcodeRowB : List (Option OpcodeRow) :=
  [some (.bare .oraB), some (.bare .oraC), some (.bare .oraD),
   some (.bare .oraE), some (.bare .oraH), some (.bare .oraL),
   some (.bare .oraM), some (.bare .oraA), some (.bare .cmpB),
   some (.bare .cmpC), some (.bare .cmpD), some (.bare .cmpE),
   some (.bare .cmpH), some (.bare .cmpL), some (.bare .cmpM),
   some (.bare .cmpA)]

/-- Row Cx of the opcode map (30_encoding.md R86). -/
def opcodeRowC : List (Option OpcodeRow) :=
  [some (.bare .rnz), some (.bare .popB), some (.wordOp .jnz),
   some (.wordOp .jmp), some (.wordOp .cnz), some (.bare .pushB),
   some (.byteOp .adi), some (.bare .rst0), some (.bare .rz),
   some (.bare .ret), some (.wordOp .jz), none,
   some (.wordOp .cz), some (.wordOp .call), some (.byteOp .aci),
   some (.bare .rst1)]

/-- Row Dx of the opcode map (30_encoding.md R86). -/
def opcodeRowD : List (Option OpcodeRow) :=
  [some (.bare .rnc), some (.bare .popD), some (.wordOp .jnc),
   some (.byteOp .outPort), some (.wordOp .cnc), some (.bare .pushD),
   some (.byteOp .sui), some (.bare .rst2), some (.bare .rc),
   none, some (.wordOp .jc), some (.byteOp .inPort),
   some (.wordOp .cc), none, some (.byteOp .sbi),
   some (.bare .rst3)]

/-- Row Ex of the opcode map (30_encoding.md R86). -/
def opcodeRowE : List (Option OpcodeRow) :=
  [some (.bare .rpo), some (.bare .popH), some (.wordOp .jpo),
   some (.bare .xthl), some (.wordOp .cpo), some (.bare .pushH),
   some (.byteOp .ani), some (.bare .rst4), some (.bare .rpe),
   some (.bare .pchl), some (.wordOp .jpe), some (.bare .xchg),
   some (.wordOp .cpe), none, some (.byteOp .xri),
   some (.bare .rst5)]

/-- Row Fx of the opcode map (30_encoding.md R86). -/
def opcodeRowF : List (Option OpcodeRow) :=
  [some (.bare .rp), some (.bare .popPSW), some (.wordOp .jp),
   some (.bare .di), some (.wordOp .cp), some (.bare .pushPSW),
   some (.byteOp .ori), some (.bare .rst6), some (.bare .rm),
   some (.bare .sphl), some (.wordOp .jm), some (.bare .ei),
   some (.wordOp .cm), none, some (.byteOp .cpi),
   some (.bare .rst7)]

/-- The whole opcode map, `none` at the ten undefined bytes (30_encoding.md R86, R87). -/
def opcodeMap : List (List (Option OpcodeRow)) :=
  [opcodeRow0, opcodeRow1, opcodeRow2, opcodeRow3, opcodeRow4, opcodeRow5, opcodeRow6, opcodeRow7,
   opcodeRow8, opcodeRow9, opcodeRowA, opcodeRowB, opcodeRowC, opcodeRowD, opcodeRowE, opcodeRowF]

/-- The entry of an opcode byte: row = high hexadecimal digit, column = low digit (30_encoding.md R86). -/
def decodeRow (b : Byte) : Option OpcodeRow :=
  match opcodeMap[b.toNat / 16]? with
  | some row => (row[b.toNat % 16]?).join
  | none => none

/-- The length of the row's instruction in bytes (30_encoding.md R70). -/
def OpcodeRow.length : OpcodeRow → Nat
  | .bare _ => 1
  | .byteOp _ => 2
  | .wordOp _ => 3

/-- The row's instruction with operand value `v`; an 8-bit operand is `v mod 256` (10_state.md R37). -/
def OpcodeRow.build (v : Word) : OpcodeRow → Instr
  | .bare i => i
  | .byteOp f => f (loByte v)
  | .wordOp f => f v

/-- The instruction of an opcode byte with the operand value `v` (42_step_engine.md R165, R166). -/
def decodeOpcode (b : Byte) (v : Word) : Option Instr := (decodeRow b).map (OpcodeRow.build v)

/-- The instruction at the front of a list of bytes, and the bytes after it (30_encoding.md R70, R73, R89). -/
def decode : List Byte → Except DecodeError (Instr × List Byte)
  | [] => .error .truncated
  | b :: rest =>
    match decodeRow b, rest with
    | none, _ => .error (.undefinedOpcode b)
    | some (.bare i), _ => .ok (i, rest)
    | some (.byteOp f), b2 :: rest' => .ok (f b2, rest')
    | some (.wordOp f), b2 :: b3 :: rest' => .ok (f (mkWord b3 b2), rest')
    | some (.byteOp _), [] => .error .truncated
    | some (.wordOp _), [] => .error .truncated
    | some (.wordOp _), [_] => .error .truncated

/-- The instruction the decoder reads from an instruction's bits, numbered as spec/opcode_table.json numbers them: bits 7..0
are the opcode byte, bits 15..8 byte 2, bits 23..16 byte 3; bits above `nbits` are 0. -/
def decodeTableWord (nbits w : Nat) : Option Instr :=
  let w := w % 2 ^ nbits
  match decode [BitVec.ofNat 8 w, BitVec.ofNat 8 (w / 256), BitVec.ofNat 8 (w / 65536)] with
  | .ok (i, _) => some i
  | .error _ => none

/-- The length in bytes as a function of the opcode byte alone (the formula of 30_encoding.md R72). -/
def opcodeLength (b : Byte) : Nat :=
  if b &&& 0xC7 = 0x06 ∨ b &&& 0xC7 = 0xC6 ∨ b = 0xDB ∨ b = 0xD3 then 2
  else if b &&& 0xCF = 0x01 ∨ b = 0x22 ∨ b = 0x2A ∨ b = 0x32 ∨ b = 0x3A ∨ b = 0xC3 ∨ b = 0xCD
      ∨ b &&& 0xC7 = 0xC2 ∨ b &&& 0xC7 = 0xC4 then 3
  else 1

/-- The structured view of each instruction: its row of 30_encoding.md R86 read with the operand names of R71. -/
def Instr.form : Instr → Form
  | .movBB => .mov (.reg .B) (.reg .B)
  | .movBC => .mov (.reg .B) (.reg .C)
  | .movBD => .mov (.reg .B) (.reg .D)
  | .movBE => .mov (.reg .B) (.reg .E)
  | .movBH => .mov (.reg .B) (.reg .H)
  | .movBL => .mov (.reg .B) (.reg .L)
  | .movBM => .mov (.reg .B) .mem
  | .movBA => .mov (.reg .B) (.reg .A)
  | .movCB => .mov (.reg .C) (.reg .B)
  | .movCC => .mov (.reg .C) (.reg .C)
  | .movCD => .mov (.reg .C) (.reg .D)
  | .movCE => .mov (.reg .C) (.reg .E)
  | .movCH => .mov (.reg .C) (.reg .H)
  | .movCL => .mov (.reg .C) (.reg .L)
  | .movCM => .mov (.reg .C) .mem
  | .movCA => .mov (.reg .C) (.reg .A)
  | .movDB => .mov (.reg .D) (.reg .B)
  | .movDC => .mov (.reg .D) (.reg .C)
  | .movDD => .mov (.reg .D) (.reg .D)
  | .movDE => .mov (.reg .D) (.reg .E)
  | .movDH => .mov (.reg .D) (.reg .H)
  | .movDL => .mov (.reg .D) (.reg .L)
  | .movDM => .mov (.reg .D) .mem
  | .movDA => .mov (.reg .D) (.reg .A)
  | .movEB => .mov (.reg .E) (.reg .B)
  | .movEC => .mov (.reg .E) (.reg .C)
  | .movED => .mov (.reg .E) (.reg .D)
  | .movEE => .mov (.reg .E) (.reg .E)
  | .movEH => .mov (.reg .E) (.reg .H)
  | .movEL => .mov (.reg .E) (.reg .L)
  | .movEM => .mov (.reg .E) .mem
  | .movEA => .mov (.reg .E) (.reg .A)
  | .movHB => .mov (.reg .H) (.reg .B)
  | .movHC => .mov (.reg .H) (.reg .C)
  | .movHD => .mov (.reg .H) (.reg .D)
  | .movHE => .mov (.reg .H) (.reg .E)
  | .movHH => .mov (.reg .H) (.reg .H)
  | .movHL => .mov (.reg .H) (.reg .L)
  | .movHM => .mov (.reg .H) .mem
  | .movHA => .mov (.reg .H) (.reg .A)
  | .movLB => .mov (.reg .L) (.reg .B)
  | .movLC => .mov (.reg .L) (.reg .C)
  | .movLD => .mov (.reg .L) (.reg .D)
  | .movLE => .mov (.reg .L) (.reg .E)
  | .movLH => .mov (.reg .L) (.reg .H)
  | .movLL => .mov (.reg .L) (.reg .L)
  | .movLM => .mov (.reg .L) .mem
  | .movLA => .mov (.reg .L) (.reg .A)
  | .movMB => .mov .mem (.reg .B)
  | .movMC => .mov .mem (.reg .C)
  | .movMD => .mov .mem (.reg .D)
  | .movME => .mov .mem (.reg .E)
  | .movMH => .mov .mem (.reg .H)
  | .movML => .mov .mem (.reg .L)
  | .movMA => .mov .mem (.reg .A)
  | .movAB => .mov (.reg .A) (.reg .B)
  | .movAC => .mov (.reg .A) (.reg .C)
  | .movAD => .mov (.reg .A) (.reg .D)
  | .movAE => .mov (.reg .A) (.reg .E)
  | .movAH => .mov (.reg .A) (.reg .H)
  | .movAL => .mov (.reg .A) (.reg .L)
  | .movAM => .mov (.reg .A) .mem
  | .movAA => .mov (.reg .A) (.reg .A)
  | .mviB d8 => .mvi (.reg .B) d8
  | .mviC d8 => .mvi (.reg .C) d8
  | .mviD d8 => .mvi (.reg .D) d8
  | .mviE d8 => .mvi (.reg .E) d8
  | .mviH d8 => .mvi (.reg .H) d8
  | .mviL d8 => .mvi (.reg .L) d8
  | .mviM d8 => .mvi .mem d8
  | .mviA d8 => .mvi (.reg .A) d8
  | .lxiB d16 => .lxi (.pair .BC) d16
  | .lxiD d16 => .lxi (.pair .DE) d16
  | .lxiH d16 => .lxi (.pair .HL) d16
  | .lxiSP d16 => .lxi .sp d16
  | .lda a16 => .lda a16
  | .sta a16 => .sta a16
  | .lhld a16 => .lhld a16
  | .shld a16 => .shld a16
  | .ldaxB => .ldax .BC
  | .ldaxD => .ldax .DE
  | .staxB => .stax .BC
  | .staxD => .stax .DE
  | .xchg => .xchg
  | .addB => .alu .add (.reg .B)
  | .addC => .alu .add (.reg .C)
  | .addD => .alu .add (.reg .D)
  | .addE => .alu .add (.reg .E)
  | .addH => .alu .add (.reg .H)
  | .addL => .alu .add (.reg .L)
  | .addM => .alu .add .mem
  | .addA => .alu .add (.reg .A)
  | .adcB => .alu .adc (.reg .B)
  | .adcC => .alu .adc (.reg .C)
  | .adcD => .alu .adc (.reg .D)
  | .adcE => .alu .adc (.reg .E)
  | .adcH => .alu .adc (.reg .H)
  | .adcL => .alu .adc (.reg .L)
  | .adcM => .alu .adc .mem
  | .adcA => .alu .adc (.reg .A)
  | .subB => .alu .sub (.reg .B)
  | .subC => .alu .sub (.reg .C)
  | .subD => .alu .sub (.reg .D)
  | .subE => .alu .sub (.reg .E)
  | .subH => .alu .sub (.reg .H)
  | .subL => .alu .sub (.reg .L)
  | .subM => .alu .sub .mem
  | .subA => .alu .sub (.reg .A)
  | .sbbB => .alu .sbb (.reg .B)
  | .sbbC => .alu .sbb (.reg .C)
  | .sbbD => .alu .sbb (.reg .D)
  | .sbbE => .alu .sbb (.reg .E)
  | .sbbH => .alu .sbb (.reg .H)
  | .sbbL => .alu .sbb (.reg .L)
  | .sbbM => .alu .sbb .mem
  | .sbbA => .alu .sbb (.reg .A)
  | .cmpB => .alu .cmp (.reg .B)
  | .cmpC => .alu .cmp (.reg .C)
  | .cmpD => .alu .cmp (.reg .D)
  | .cmpE => .alu .cmp (.reg .E)
  | .cmpH => .alu .cmp (.reg .H)
  | .cmpL => .alu .cmp (.reg .L)
  | .cmpM => .alu .cmp .mem
  | .cmpA => .alu .cmp (.reg .A)
  | .adi d8 => .alui .add d8
  | .aci d8 => .alui .adc d8
  | .sui d8 => .alui .sub d8
  | .sbi d8 => .alui .sbb d8
  | .cpi d8 => .alui .cmp d8
  | .inrB => .inr (.reg .B)
  | .inrC => .inr (.reg .C)
  | .inrD => .inr (.reg .D)
  | .inrE => .inr (.reg .E)
  | .inrH => .inr (.reg .H)
  | .inrL => .inr (.reg .L)
  | .inrM => .inr .mem
  | .inrA => .inr (.reg .A)
  | .dcrB => .dcr (.reg .B)
  | .dcrC => .dcr (.reg .C)
  | .dcrD => .dcr (.reg .D)
  | .dcrE => .dcr (.reg .E)
  | .dcrH => .dcr (.reg .H)
  | .dcrL => .dcr (.reg .L)
  | .dcrM => .dcr .mem
  | .dcrA => .dcr (.reg .A)
  | .inxB => .inx (.pair .BC)
  | .inxD => .inx (.pair .DE)
  | .inxH => .inx (.pair .HL)
  | .inxSP => .inx .sp
  | .dcxB => .dcx (.pair .BC)
  | .dcxD => .dcx (.pair .DE)
  | .dcxH => .dcx (.pair .HL)
  | .dcxSP => .dcx .sp
  | .dadB => .dad (.pair .BC)
  | .dadD => .dad (.pair .DE)
  | .dadH => .dad (.pair .HL)
  | .dadSP => .dad .sp
  | .daa => .daa
  | .anaB => .alu .ana (.reg .B)
  | .anaC => .alu .ana (.reg .C)
  | .anaD => .alu .ana (.reg .D)
  | .anaE => .alu .ana (.reg .E)
  | .anaH => .alu .ana (.reg .H)
  | .anaL => .alu .ana (.reg .L)
  | .anaM => .alu .ana .mem
  | .anaA => .alu .ana (.reg .A)
  | .oraB => .alu .ora (.reg .B)
  | .oraC => .alu .ora (.reg .C)
  | .oraD => .alu .ora (.reg .D)
  | .oraE => .alu .ora (.reg .E)
  | .oraH => .alu .ora (.reg .H)
  | .oraL => .alu .ora (.reg .L)
  | .oraM => .alu .ora .mem
  | .oraA => .alu .ora (.reg .A)
  | .xraB => .alu .xra (.reg .B)
  | .xraC => .alu .xra (.reg .C)
  | .xraD => .alu .xra (.reg .D)
  | .xraE => .alu .xra (.reg .E)
  | .xraH => .alu .xra (.reg .H)
  | .xraL => .alu .xra (.reg .L)
  | .xraM => .alu .xra .mem
  | .xraA => .alu .xra (.reg .A)
  | .ani d8 => .alui .ana d8
  | .ori d8 => .alui .ora d8
  | .xri d8 => .alui .xra d8
  | .rlc => .rlc
  | .rrc => .rrc
  | .ral => .ral
  | .rar => .rar
  | .cma => .cma
  | .cmc => .cmc
  | .stc => .stc
  | .rnz => .rcc .NZ
  | .jnz a16 => .jcc .NZ a16
  | .jmp a16 => .jmp a16
  | .cnz a16 => .ccc .NZ a16
  | .rst0 => .rst 0
  | .rz => .rcc .Z
  | .ret => .ret
  | .jz a16 => .jcc .Z a16
  | .cz a16 => .ccc .Z a16
  | .call a16 => .call a16
  | .rst1 => .rst 1
  | .rnc => .rcc .NC
  | .jnc a16 => .jcc .NC a16
  | .cnc a16 => .ccc .NC a16
  | .rst2 => .rst 2
  | .rc => .rcc .C
  | .jc a16 => .jcc .C a16
  | .cc a16 => .ccc .C a16
  | .rst3 => .rst 3
  | .rpo => .rcc .PO
  | .jpo a16 => .jcc .PO a16
  | .cpo a16 => .ccc .PO a16
  | .rst4 => .rst 4
  | .rpe => .rcc .PE
  | .pchl => .pchl
  | .jpe a16 => .jcc .PE a16
  | .cpe a16 => .ccc .PE a16
  | .rst5 => .rst 5
  | .rp => .rcc .P
  | .jp a16 => .jcc .P a16
  | .cp a16 => .ccc .P a16
  | .rst6 => .rst 6
  | .rm => .rcc .M
  | .jm a16 => .jcc .M a16
  | .cm a16 => .ccc .M a16
  | .rst7 => .rst 7
  | .pushB => .push (.pair .BC)
  | .pushD => .push (.pair .DE)
  | .pushH => .push (.pair .HL)
  | .pushPSW => .push .psw
  | .popB => .pop (.pair .BC)
  | .popD => .pop (.pair .DE)
  | .popH => .pop (.pair .HL)
  | .popPSW => .pop .psw
  | .xthl => .xthl
  | .sphl => .sphl
  | .nop => .nop
  | .ei => .ei
  | .di => .di
  | .inPort port => .inPort port
  | .outPort port => .outPort port
  | .hlt => .hlt
  | .rim => .rim
  | .sim => .sim

/-- Three-bit register codes, `ddd` and `sss` (30_encoding.md R71). -/
def Reg.code : Reg → Nat
  | .B => 0 | .C => 1 | .D => 2 | .E => 3 | .H => 4 | .L => 5 | .A => 7

/-- Three-bit operand codes; M is 6 (30_encoding.md R71). -/
def Opnd.code : Opnd → Nat
  | .reg r => r.code
  | .mem => 6

/-- Two-bit pair codes (30_encoding.md R71). -/
def Pair.code : Pair → Nat
  | .BC => 0 | .DE => 1 | .HL => 2

/-- The pair code of LXI, INX, DCX, DAD; SP is 3 (30_encoding.md R71). -/
def Rp.code : Rp → Nat
  | .pair p => p.code
  | .sp => 3

/-- The pair code of PUSH and POP; PSW is 3 (30_encoding.md R71). -/
def Rq.code : Rq → Nat
  | .pair p => p.code
  | .psw => 3

/-- The pair code of LDAX and STAX (30_encoding.md R71). -/
def IndPair.code : IndPair → Nat
  | .BC => 0 | .DE => 1

/-- Three-bit condition codes (30_encoding.md R71, 46_branch.md R270). -/
def Cond.code : Cond → Nat
  | .NZ => 0 | .Z => 1 | .NC => 2 | .C => 3 | .PO => 4 | .PE => 5 | .P => 6 | .M => 7

/-- Three-bit ALU operation codes, `aaa` (30_encoding.md R71). -/
def AluOp.code : AluOp → Nat
  | .add => 0 | .adc => 1 | .sub => 2 | .sbb => 3 | .ana => 4 | .xra => 5 | .ora => 6 | .cmp => 7

/-- The opcode byte of a form (30_encoding.md R76 to R84). -/
def Form.opcode : Form → Byte
  | .mov d s => BitVec.ofNat 8 (0x40 + 8 * d.code + s.code)
  | .mvi d _ => BitVec.ofNat 8 (0x06 + 8 * d.code)
  | .lxi p _ => BitVec.ofNat 8 (0x01 + 16 * p.code)
  | .lda _ => 0x3A
  | .sta _ => 0x32
  | .lhld _ => 0x2A
  | .shld _ => 0x22
  | .ldax p => BitVec.ofNat 8 (0x0A + 16 * p.code)
  | .stax p => BitVec.ofNat 8 (0x02 + 16 * p.code)
  | .xchg => 0xEB
  | .alu op s => BitVec.ofNat 8 (0x80 + 8 * op.code + s.code)
  | .alui op _ => BitVec.ofNat 8 (0xC6 + 8 * op.code)
  | .inr d => BitVec.ofNat 8 (0x04 + 8 * d.code)
  | .dcr d => BitVec.ofNat 8 (0x05 + 8 * d.code)
  | .inx p => BitVec.ofNat 8 (0x03 + 16 * p.code)
  | .dcx p => BitVec.ofNat 8 (0x0B + 16 * p.code)
  | .dad p => BitVec.ofNat 8 (0x09 + 16 * p.code)
  | .daa => 0x27
  | .rlc => 0x07
  | .rrc => 0x0F
  | .ral => 0x17
  | .rar => 0x1F
  | .cma => 0x2F
  | .stc => 0x37
  | .cmc => 0x3F
  | .jmp _ => 0xC3
  | .jcc c _ => BitVec.ofNat 8 (0xC2 + 8 * c.code)
  | .call _ => 0xCD
  | .ccc c _ => BitVec.ofNat 8 (0xC4 + 8 * c.code)
  | .ret => 0xC9
  | .rcc c => BitVec.ofNat 8 (0xC0 + 8 * c.code)
  | .pchl => 0xE9
  | .rst n => BitVec.ofNat 8 (0xC7 + 8 * n.val)
  | .push q => BitVec.ofNat 8 (0xC5 + 16 * q.code)
  | .pop q => BitVec.ofNat 8 (0xC1 + 16 * q.code)
  | .xthl => 0xE3
  | .sphl => 0xF9
  | .nop => 0x00
  | .ei => 0xFB
  | .di => 0xF3
  | .rim => 0x20
  | .sim => 0x30
  | .inPort _ => 0xDB
  | .outPort _ => 0xD3
  | .hlt => 0x76

/-- The operand bytes of a 16-bit operand: low byte, then high byte (30_encoding.md R70, R73). -/
def wordBytes (v : Word) : List Byte := [loByte v, hiByte v]

/-- The bytes after the opcode byte (30_encoding.md R70, R72). -/
def Form.operandBytes : Form → List Byte
  | .mvi _ d8 | .alui _ d8 => [d8]
  | .inPort port | .outPort port => [port]
  | .lxi _ d16 => wordBytes d16
  | .lda a16 | .sta a16 | .lhld a16 | .shld a16 | .jmp a16 | .jcc _ a16 | .call a16 | .ccc _ a16 => wordBytes a16
  | .mov _ _ | .ldax _ | .stax _ | .xchg | .alu _ _ | .inr _ | .dcr _ | .inx _ | .dcx _ | .dad _ | .daa
  | .rlc | .rrc | .ral | .rar | .cma | .cmc | .stc | .ret | .rcc _ | .pchl | .rst _ | .push _ | .pop _
  | .xthl | .sphl | .nop | .ei | .di | .rim | .sim | .hlt => []

/-- The length of a form in bytes: 2 for the immediate and I/O mnemonics, 3 for the address and 16-bit-immediate
mnemonics, 1 otherwise (30_encoding.md R72), under every setting of P4 (assumption log 25). -/
def Form.length : Form → Nat
  | .mvi _ _ | .alui _ _ | .inPort _ | .outPort _ => 2
  | .lxi _ _ | .lda _ | .sta _ | .lhld _ | .shld _ | .jmp _ | .jcc _ _ | .call _ | .ccc _ _ => 3
  | .mov _ _ | .ldax _ | .stax _ | .xchg | .alu _ _ | .inr _ | .dcr _ | .inx _ | .dcx _ | .dad _ | .daa
  | .rlc | .rrc | .ral | .rar | .cma | .cmc | .stc | .ret | .rcc _ | .pchl | .rst _ | .push _ | .pop _
  | .xthl | .sphl | .nop | .ei | .di | .rim | .sim | .hlt => 1

/-- The encoded length of an instruction (30_encoding.md R72). -/
def Instr.length (i : Instr) : Nat := i.form.length

/-- The bytes of an instruction (30_encoding.md R70). -/
def encode (i : Instr) : List Byte := i.form.opcode :: i.form.operandBytes

/-- The instruction with another operand value; an 8-bit operand takes `v mod 256` (10_state.md R37, 42_step_engine.md
R166). -/
def Instr.withOperand (v : Word) (i : Instr) : Instr :=
  match i with
  | .mviB _ => .mviB (loByte v)
  | .mviC _ => .mviC (loByte v)
  | .mviD _ => .mviD (loByte v)
  | .mviE _ => .mviE (loByte v)
  | .mviH _ => .mviH (loByte v)
  | .mviL _ => .mviL (loByte v)
  | .mviM _ => .mviM (loByte v)
  | .mviA _ => .mviA (loByte v)
  | .lxiB _ => .lxiB v
  | .lxiD _ => .lxiD v
  | .lxiH _ => .lxiH v
  | .lxiSP _ => .lxiSP v
  | .lda _ => .lda v
  | .sta _ => .sta v
  | .lhld _ => .lhld v
  | .shld _ => .shld v
  | .adi _ => .adi (loByte v)
  | .aci _ => .aci (loByte v)
  | .sui _ => .sui (loByte v)
  | .sbi _ => .sbi (loByte v)
  | .cpi _ => .cpi (loByte v)
  | .ani _ => .ani (loByte v)
  | .ori _ => .ori (loByte v)
  | .xri _ => .xri (loByte v)
  | .jnz _ => .jnz v
  | .jmp _ => .jmp v
  | .cnz _ => .cnz v
  | .jz _ => .jz v
  | .cz _ => .cz v
  | .call _ => .call v
  | .jnc _ => .jnc v
  | .cnc _ => .cnc v
  | .jc _ => .jc v
  | .cc _ => .cc v
  | .jpo _ => .jpo v
  | .cpo _ => .cpo v
  | .jpe _ => .jpe v
  | .cpe _ => .cpe v
  | .jp _ => .jp v
  | .cp _ => .cp v
  | .jm _ => .jm v
  | .cm _ => .cm v
  | .inPort _ => .inPort (loByte v)
  | .outPort _ => .outPort (loByte v)
  | .movBB | .movBC | .movBD | .movBE | .movBH | .movBL | .movBM | .movBA | .movCB | .movCC | .movCD | .movCE
  | .movCH | .movCL | .movCM | .movCA | .movDB | .movDC | .movDD | .movDE | .movDH | .movDL | .movDM | .movDA
  | .movEB | .movEC | .movED | .movEE | .movEH | .movEL | .movEM | .movEA | .movHB | .movHC | .movHD | .movHE
  | .movHH | .movHL | .movHM | .movHA | .movLB | .movLC | .movLD | .movLE | .movLH | .movLL | .movLM | .movLA
  | .movMB | .movMC | .movMD | .movME | .movMH | .movML | .movMA | .movAB | .movAC | .movAD | .movAE | .movAH
  | .movAL | .movAM | .movAA | .ldaxB | .ldaxD | .staxB | .staxD | .xchg | .addB | .addC | .addD | .addE | .addH
  | .addL | .addM | .addA | .adcB | .adcC | .adcD | .adcE | .adcH | .adcL | .adcM | .adcA | .subB | .subC | .subD
  | .subE | .subH | .subL | .subM | .subA | .sbbB | .sbbC | .sbbD | .sbbE | .sbbH | .sbbL | .sbbM | .sbbA | .cmpB
  | .cmpC | .cmpD | .cmpE | .cmpH | .cmpL | .cmpM | .cmpA | .inrB | .inrC | .inrD | .inrE | .inrH | .inrL | .inrM
  | .inrA | .dcrB | .dcrC | .dcrD | .dcrE | .dcrH | .dcrL | .dcrM | .dcrA | .inxB | .inxD | .inxH | .inxSP | .dcxB
  | .dcxD | .dcxH | .dcxSP | .dadB | .dadD | .dadH | .dadSP | .daa | .anaB | .anaC | .anaD | .anaE | .anaH | .anaL
  | .anaM | .anaA | .oraB | .oraC | .oraD | .oraE | .oraH | .oraL | .oraM | .oraA | .xraB | .xraC | .xraD | .xraE
  | .xraH | .xraL | .xraM | .xraA | .rlc | .rrc | .ral | .rar | .cma | .cmc | .stc | .rnz | .rst0 | .rz | .ret
  | .rst1 | .rnc | .rst2 | .rc | .rst3 | .rpo | .rst4 | .rpe | .pchl | .rst5 | .rp | .rst6 | .rm | .rst7 | .pushB
  | .pushD | .pushH | .pushPSW | .popB | .popD | .popH | .popPSW | .xthl | .sphl | .nop | .ei | .di | .hlt | .rim
  | .sim => i

/-- The value of an instruction's operand, 0 if it has none (10_state.md R37, 30_encoding.md R73). -/
def Instr.operand (i : Instr) : Word :=
  match i.form.operandBytes with
  | [lo] => mkWord 0 lo
  | [lo, hi] => mkWord hi lo
  | _ => 0

/-- `len(rec)` (10_state.md R37). -/
def Record.len (r : Record) : Nat := r.instr.length

/-- `val(rec)` (10_state.md R37). -/
def Record.val (r : Record) : Word := r.instr.operand

end Sys2Proof
end

