-- ==== Sys2Proof/Machine/Timing.lean ====
section
/-! DEFINITION. The T-state timer's cost function (48_timing.md R332 to R334). -/

namespace Sys2Proof.Machine

/-- `cost(rec, taken)`: it depends on the instruction's form and, for the conditional forms, on `taken` alone
(48_timing.md R332). The numbers CALL 18, RET 10 and JZ 10 and 7 are the source's own (R334, marked S). -/
def cost (t : CostTable) (f : Form) (taken : Bool) : Nat :=
  match f with
  | .mov (.reg _) (.reg _) => t.movRR
  | .mov (.reg _) .mem => t.movRM
  | .mov .mem _ => t.movMR
  | .mvi (.reg _) _ => t.mviR
  | .mvi .mem _ => t.mviM
  | .lxi _ _ => t.lxi
  | .lda _ => t.lda
  | .sta _ => t.sta
  | .lhld _ => t.lhld
  | .shld _ => t.shld
  | .ldax _ => t.ldax
  | .stax _ => t.stax
  | .xchg => t.xchg
  | .alu _ (.reg _) => t.aluR
  | .alu _ .mem => t.aluM
  | .alui _ _ => t.aluI
  | .inr (.reg _) | .dcr (.reg _) => t.inrDcrR
  | .inr .mem | .dcr .mem => t.inrDcrM
  | .inx _ | .dcx _ => t.inxDcx
  | .dad _ => t.dad
  | .daa => t.daa
  | .rlc | .rrc | .ral | .rar => t.rotate
  | .cma | .cmc | .stc => t.carryOps
  | .jmp _ => t.jmp
  | .jcc .Z _ => if taken then 10 else 7
  | .jcc _ _ => if taken then t.jccTaken else t.jccNotTaken
  | .call _ => 18
  | .ccc _ _ => if taken then t.cccTaken else t.cccNotTaken
  | .ret => 10
  | .rcc _ => if taken then t.rccTaken else t.rccNotTaken
  | .pchl => t.pchl
  | .rst _ => t.rst
  | .push _ => t.push
  | .pop _ => t.pop
  | .xthl => t.xthl
  | .sphl => t.sphl
  | .inPort _ | .outPort _ => t.inOut
  | .ei | .di => t.eiDi
  | .rim | .sim => t.rimSim
  | .nop => t.nop
  | .hlt => t.hlt

/-- The counter after `c` is added to `t`: unbounded by default (10_state.md R33), or of the width of P12 (assumption
log 8). -/
def addTStates (width : Option Nat) (t c : Nat) : Nat :=
  match width with
  | none => t + c
  | some w => (t + c) % 2 ^ w

end Sys2Proof.Machine
end

