-- ==== Sys2Proof/Machine/Ops.lean ====
section
/-! DEFINITION. The named operations over memory, registers, the stack and the run state that every meaning is written
with, the commit of an instruction, and the step failure. -/

namespace Sys2Proof.Machine

/-- What an address that is not listed reads as (20_memory.md R50: "absent entries read as 0"). -/
def unlistedByte : Byte := 0x00

/-- The byte a memory lists for an address, or 0. -/
def Memory.lookup : Memory → Nat → Byte
  | [], _ => unlistedByte
  | (k, v) :: rest, a => if a = k then v else Memory.lookup rest a

/-- List a byte for an address, in its place in the rising order. -/
def Memory.insert : Memory → Nat → Byte → Memory
  | [], a, v => [(a, v)]
  | (k, w) :: rest, a, v =>
    if a < k then (a, v) :: (k, w) :: rest
    else if a = k then (a, v) :: rest
    else (k, w) :: Memory.insert rest a v

/-- `MemRead(addr, 1)` (20_memory.md R51). -/
def Memory.read (m : Memory) (a : Word) : Byte := Memory.lookup m a.toNat

/-- `MemWrite(addr, 1, v)`, keeping the canonical form: writing 0 unlists the address (20_memory.md R52). -/
def Memory.write (m : Memory) (a : Word) (v : Byte) : Memory :=
  if v = unlistedByte then m.filter (fun cell => cell.1 ≠ a.toNat) else Memory.insert m a.toNat v

/-- The cells are at rising addresses from `lo` up, below 65536, and none holds what an unlisted address reads as. -/
def Memory.wfFrom : Nat → Memory → Bool
  | _, [] => true
  | lo, (k, v) :: rest => decide (lo ≤ k) && decide (k < 65536) && decide (v ≠ unlistedByte) && Memory.wfFrom (k + 1) rest

/-- The canonical form of a memory. -/
def Memory.wf (m : Memory) : Bool := Memory.wfFrom 0 m

/-- `MemRead(addr, 2)`, low byte at the lower address (20_memory.md R55). -/
def Memory.readWord (m : Memory) (a : Word) : Word := mkWord (m.read (a + 1)) (m.read a)

/-- `MemWrite(addr, 2, v)`, low byte at the lower address (20_memory.md R55). -/
def Memory.writeWord (m : Memory) (a v : Word) : Memory := (m.write a (loByte v)).write (a + 1) (hiByte v)

/-- `r[X]` (00_scope.md R10). -/
def State.reg (s : State) : Reg → Byte
  | .A => s.a
  | .B => s.b
  | .C => s.c
  | .D => s.d
  | .E => s.e
  | .H => s.h
  | .L => s.l

/-- `r[X] <- v` (00_scope.md R10). -/
def State.setReg (s : State) (r : Reg) (v : Byte) : State :=
  match r with
  | .A => { s with a := v }
  | .B => { s with b := v }
  | .C => { s with c := v }
  | .D => { s with d := v }
  | .E => { s with e := v }
  | .H => { s with h := v }
  | .L => { s with l := v }

/-- The high register of a pair (10_state.md R23). -/
def Pair.hi : Pair → Reg
  | .BC => .B
  | .DE => .D
  | .HL => .H

/-- The low register of a pair (10_state.md R23). -/
def Pair.lo : Pair → Reg
  | .BC => .C
  | .DE => .E
  | .HL => .L

/-- `rp[XY]`, a view of two registers (10_state.md R23). -/
def State.pair (s : State) (p : Pair) : Word := mkWord (s.reg (Pair.hi p)) (s.reg (Pair.lo p))

/-- `rp[XY] <- v` (00_scope.md R10). -/
def State.setPair (s : State) (p : Pair) (v : Word) : State :=
  (s.setReg (Pair.hi p) (hiByte v)).setReg (Pair.lo p) (loByte v)

/-- The address of operand M, `rp[HL]` (30_encoding.md R74). -/
def State.hl (s : State) : Word := s.pair .HL

/-- A one-byte data read (20_memory.md R53). -/
def State.load8 (s : State) (a : Word) : Byte := s.mem.read a

/-- A one-byte store (20_memory.md R52). -/
def State.store8 (s : State) (a : Word) (v : Byte) : State := { s with mem := s.mem.write a v }

/-- A two-byte data read (20_memory.md R55). -/
def State.load16 (s : State) (a : Word) : Word := s.mem.readWord a

/-- A two-byte store (20_memory.md R55). -/
def State.store16 (s : State) (a v : Word) : State := { s with mem := s.mem.writeWord a v }

/-- `Push16(v)`: high byte at SP-1, low byte at SP-2, then SP <- SP-2 (20_memory.md R57). -/
def State.push16 (s : State) (v : Word) : State :=
  { s with mem := (s.mem.write (s.sp - 1) (hiByte v)).write (s.sp - 2) (loByte v), sp := s.sp - 2 }

/-- The word `Pop16()` returns: low byte at SP, high byte at SP+1 (20_memory.md R57). -/
def State.popValue (s : State) : Word := mkWord (s.load8 (s.sp + 1)) (s.load8 s.sp)

/-- `Pop16()`'s change of SP: SP <- SP+2 (20_memory.md R57). -/
def State.popSp (s : State) : State := { s with sp := s.sp + 2 }

/-- Enter the run state `halted` (42_step_engine.md R161). -/
def State.enterHalt (s : State) : State := { s with halted := true }

/-- What executing an instruction leaves before the commit: the changed state, whose PC is still the instruction's own
address, `nextPC`, and `controlTransferTaken` (42_step_engine.md R168, 10_state.md R32). -/
structure Effect where
  st : State
  nextPC : Word
  taken : Bool

/-- The execute stage of an instruction, given the fall-through address (42_step_engine.md R167, R168). -/
abbrev Stage := Word → State → Effect

/-- A stage that changes the state by `f` and falls through. -/
def sequential (f : State → State) : Stage := fun next s => ⟨f s, next, false⟩

/-- A stage that changes the state by `f` and transfers control to `target` of the old state. -/
def transfer (f : Word → State → State) (target : State → Word) : Stage := fun next s => ⟨f next s, target s, true⟩

/-- A stage that is `taken` when the condition holds and otherwise falls through with no other effect (46_branch.md R300). -/
def conditional (c : State → Bool) (taken : Stage) : Stage := fun next s =>
  if c s then taken next s else ⟨s, next, false⟩

/-- `(PC + len(rec)) mod 65536`, the default `nextPC` and the address calls push (42_step_engine.md R167). -/
def fallThrough (i : Instr) (s : State) : Word := s.pc + BitVec.ofNat 16 i.length

/-- Execute and commit one instruction: `PC <- nextPC`, then the T-state charge (42_step_engine.md R167 to R171). -/
def retire (i : Instr) (stage : Stage) (s : State) : Host.Outcome State Fault Refusal :=
  let eff := stage (fallThrough i s) s
  .next { eff.st with
    pc := eff.nextPC
    tStates := addTStates s.cfg.tstateWidth s.tStates (cost s.cfg.tstate i.form eff.taken) }

/-- `raise StepFailure`, the one synchronous exception: nothing is saved, no state changes, control goes nowhere
(60_exceptions.md R350, R357). -/
def raiseStepFailure : Host.Outcome State Fault Refusal := .fault .stepFailure

end Sys2Proof.Machine
end

