-- ==== Sys2Proof/Machine/Operands.lean ====
section
/-! DEFINITION. The operand forms: register or M, pair or SP, pair or PSW, the pairs of LDAX and STAX
(00_scope.md R11, 30_encoding.md R74). -/

namespace Sys2Proof.Machine

/-- `src(s)`: a register, or the byte at HL (44_arithmetic.md, 30_encoding.md R74). -/
def State.readOpnd (s : State) : Opnd → Byte
  | .reg r => s.reg r
  | .mem => s.load8 s.hl

/-- Write a register, or the byte at HL (30_encoding.md R74). -/
def State.writeOpnd (s : State) (o : Opnd) (v : Byte) : State :=
  match o with
  | .reg r => s.setReg r v
  | .mem => s.store8 s.hl v

/-- The value of a pair or SP. -/
def State.rp (s : State) : Rp → Word
  | .pair p => s.pair p
  | .sp => s.sp

/-- Write a pair or SP. -/
def State.setRp (s : State) (p : Rp) (v : Word) : State :=
  match p with
  | .pair p => s.setPair p v
  | .sp => { s with sp := v }

/-- The PSW word: A and the flag byte (10_state.md R24). -/
def State.psw (s : State) : Word := mkWord s.a (flagByte s.flags)

/-- Take a PSW word apart into A and the flags (47_stack_control.md R313). -/
def State.setPsw (s : State) (w : Word) : State := { s with a := hiByte w, flags := unpackFlags (loByte w) }

/-- The word PUSH pushes. -/
def State.rq (s : State) : Rq → Word
  | .pair p => s.pair p
  | .psw => s.psw

/-- Write the word POP popped. -/
def State.setRq (s : State) (q : Rq) (w : Word) : State :=
  match q with
  | .pair p => s.setPair p w
  | .psw => s.setPsw w

/-- The pair of LDAX and STAX. -/
def IndPair.pair : IndPair → Pair
  | .BC => .BC
  | .DE => .DE

/-- The address LDAX and STAX use (43_data_transfer.md R210, R211). -/
def State.indirect (s : State) (p : IndPair) : Word := s.pair (IndPair.pair p)

/-- Write the flags. -/
def State.setFlags (s : State) (f : Flags) : State := { s with flags := f }

/-- Write A and the flags together: the result of an ALU operation. -/
def State.setAF (s : State) (r : Byte × Flags) : State := { s with a := r.1, flags := r.2 }

/-- Write A and CY alone: the result of a rotate (45_logical.md R256 to R259). -/
def State.setACy (s : State) (r : Byte × Bool) : State := { s with a := r.1, flags := { s.flags with cy := r.2 } }

end Sys2Proof.Machine
end

