-- ==== Sys2Proof/Machine/Arithmetic.lean ====
section
/-! DEFINITION. The arithmetic instructions (44_arithmetic.md R220 to R236): the shared operations, then one meaning for
each instruction. -/

namespace Sys2Proof.Machine

/-- The ALU instructions with a register-or-M operand (R220 to R224, 45_logical.md R250 to R252). -/
def opAlu (op : AluOp) (src : Opnd) : Stage :=
  sequential fun s => s.setAF (aluResult s.cfg.acSub op s.a (s.readOpnd src) s.flags)

/-- The immediate ALU instructions (R225 to R229, 45_logical.md R253 to R255). -/
def opAlui (op : AluOp) (d8 : Byte) : Stage :=
  sequential fun s => s.setAF (aluResult s.cfg.acSub op s.a d8 s.flags)

/-- INR: the operand and S Z AC P; CY unchanged (R230). -/
def opInr (d : Opnd) : Stage := sequential fun s =>
  let r := inc8 (s.readOpnd d) s.flags
  (s.writeOpnd d r.1).setFlags r.2

/-- DCR: the operand and S Z AC P; CY unchanged (R231). -/
def opDcr (d : Opnd) : Stage := sequential fun s =>
  let r := dec8 s.cfg.acSub (s.readOpnd d) s.flags
  (s.writeOpnd d r.1).setFlags r.2

/-- INX: no flag (R232). -/
def opInx (p : Rp) : Stage := sequential fun s => s.setRp p (narrow16 ((s.rp p).toNat + 1))

/-- DCX: no flag (R233). -/
def opDcx (p : Rp) : Stage := sequential fun s => s.setRp p (narrow16 ((s.rp p).toNat - 1))

/-- DAD: HL and CY alone (R234). -/
def opDad (p : Rp) : Stage := sequential fun s =>
  let r := dadResult s.hl (s.rp p)
  (s.setPair .HL r.1).setFlags { s.flags with cy := r.2 }

/-- DAA (R235). -/
def opDaa : Stage := sequential fun s => s.setAF (daaResult s.a s.flags)

/-- ADD B (R220). -/
def execAddB (s : State) : Host.Outcome State Fault Refusal :=
  retire .addB (opAlu .add (.reg .B)) s

/-- ADD C (R220). -/
def execAddC (s : State) : Host.Outcome State Fault Refusal :=
  retire .addC (opAlu .add (.reg .C)) s

/-- ADD D (R220). -/
def execAddD (s : State) : Host.Outcome State Fault Refusal :=
  retire .addD (opAlu .add (.reg .D)) s

/-- ADD E (R220). -/
def execAddE (s : State) : Host.Outcome State Fault Refusal :=
  retire .addE (opAlu .add (.reg .E)) s

/-- ADD H (R220). -/
def execAddH (s : State) : Host.Outcome State Fault Refusal :=
  retire .addH (opAlu .add (.reg .H)) s

/-- ADD L (R220). -/
def execAddL (s : State) : Host.Outcome State Fault Refusal :=
  retire .addL (opAlu .add (.reg .L)) s

/-- ADD M (R220). -/
def execAddM (s : State) : Host.Outcome State Fault Refusal :=
  retire .addM (opAlu .add .mem) s

/-- ADD A (R220). -/
def execAddA (s : State) : Host.Outcome State Fault Refusal :=
  retire .addA (opAlu .add (.reg .A)) s

/-- ADC B (R221). -/
def execAdcB (s : State) : Host.Outcome State Fault Refusal :=
  retire .adcB (opAlu .adc (.reg .B)) s

/-- ADC C (R221). -/
def execAdcC (s : State) : Host.Outcome State Fault Refusal :=
  retire .adcC (opAlu .adc (.reg .C)) s

/-- ADC D (R221). -/
def execAdcD (s : State) : Host.Outcome State Fault Refusal :=
  retire .adcD (opAlu .adc (.reg .D)) s

/-- ADC E (R221). -/
def execAdcE (s : State) : Host.Outcome State Fault Refusal :=
  retire .adcE (opAlu .adc (.reg .E)) s

/-- ADC H (R221). -/
def execAdcH (s : State) : Host.Outcome State Fault Refusal :=
  retire .adcH (opAlu .adc (.reg .H)) s

/-- ADC L (R221). -/
def execAdcL (s : State) : Host.Outcome State Fault Refusal :=
  retire .adcL (opAlu .adc (.reg .L)) s

/-- ADC M (R221). -/
def execAdcM (s : State) : Host.Outcome State Fault Refusal :=
  retire .adcM (opAlu .adc .mem) s

/-- ADC A (R221). -/
def execAdcA (s : State) : Host.Outcome State Fault Refusal :=
  retire .adcA (opAlu .adc (.reg .A)) s

/-- SUB B (R222). -/
def execSubB (s : State) : Host.Outcome State Fault Refusal :=
  retire .subB (opAlu .sub (.reg .B)) s

/-- SUB C (R222). -/
def execSubC (s : State) : Host.Outcome State Fault Refusal :=
  retire .subC (opAlu .sub (.reg .C)) s

/-- SUB D (R222). -/
def execSubD (s : State) : Host.Outcome State Fault Refusal :=
  retire .subD (opAlu .sub (.reg .D)) s

/-- SUB E (R222). -/
def execSubE (s : State) : Host.Outcome State Fault Refusal :=
  retire .subE (opAlu .sub (.reg .E)) s

/-- SUB H (R222). -/
def execSubH (s : State) : Host.Outcome State Fault Refusal :=
  retire .subH (opAlu .sub (.reg .H)) s

/-- SUB L (R222). -/
def execSubL (s : State) : Host.Outcome State Fault Refusal :=
  retire .subL (opAlu .sub (.reg .L)) s

/-- SUB M (R222). -/
def execSubM (s : State) : Host.Outcome State Fault Refusal :=
  retire .subM (opAlu .sub .mem) s

/-- SUB A (R222). -/
def execSubA (s : State) : Host.Outcome State Fault Refusal :=
  retire .subA (opAlu .sub (.reg .A)) s

/-- SBB B (R223). -/
def execSbbB (s : State) : Host.Outcome State Fault Refusal :=
  retire .sbbB (opAlu .sbb (.reg .B)) s

/-- SBB C (R223). -/
def execSbbC (s : State) : Host.Outcome State Fault Refusal :=
  retire .sbbC (opAlu .sbb (.reg .C)) s

/-- SBB D (R223). -/
def execSbbD (s : State) : Host.Outcome State Fault Refusal :=
  retire .sbbD (opAlu .sbb (.reg .D)) s

/-- SBB E (R223). -/
def execSbbE (s : State) : Host.Outcome State Fault Refusal :=
  retire .sbbE (opAlu .sbb (.reg .E)) s

/-- SBB H (R223). -/
def execSbbH (s : State) : Host.Outcome State Fault Refusal :=
  retire .sbbH (opAlu .sbb (.reg .H)) s

/-- SBB L (R223). -/
def execSbbL (s : State) : Host.Outcome State Fault Refusal :=
  retire .sbbL (opAlu .sbb (.reg .L)) s

/-- SBB M (R223). -/
def execSbbM (s : State) : Host.Outcome State Fault Refusal :=
  retire .sbbM (opAlu .sbb .mem) s

/-- SBB A (R223). -/
def execSbbA (s : State) : Host.Outcome State Fault Refusal :=
  retire .sbbA (opAlu .sbb (.reg .A)) s

/-- CMP B (R224). -/
def execCmpB (s : State) : Host.Outcome State Fault Refusal :=
  retire .cmpB (opAlu .cmp (.reg .B)) s

/-- CMP C (R224). -/
def execCmpC (s : State) : Host.Outcome State Fault Refusal :=
  retire .cmpC (opAlu .cmp (.reg .C)) s

/-- CMP D (R224). -/
def execCmpD (s : State) : Host.Outcome State Fault Refusal :=
  retire .cmpD (opAlu .cmp (.reg .D)) s

/-- CMP E (R224). -/
def execCmpE (s : State) : Host.Outcome State Fault Refusal :=
  retire .cmpE (opAlu .cmp (.reg .E)) s

/-- CMP H (R224). -/
def execCmpH (s : State) : Host.Outcome State Fault Refusal :=
  retire .cmpH (opAlu .cmp (.reg .H)) s

/-- CMP L (R224). -/
def execCmpL (s : State) : Host.Outcome State Fault Refusal :=
  retire .cmpL (opAlu .cmp (.reg .L)) s

/-- CMP M (R224). -/
def execCmpM (s : State) : Host.Outcome State Fault Refusal :=
  retire .cmpM (opAlu .cmp .mem) s

/-- CMP A (R224). -/
def execCmpA (s : State) : Host.Outcome State Fault Refusal :=
  retire .cmpA (opAlu .cmp (.reg .A)) s

/-- ADI d8 (R225). -/
def execAdi (d8 : Byte) (s : State) : Host.Outcome State Fault Refusal :=
  retire (.adi d8) (opAlui .add d8) s

/-- ACI d8 (R226). -/
def execAci (d8 : Byte) (s : State) : Host.Outcome State Fault Refusal :=
  retire (.aci d8) (opAlui .adc d8) s

/-- SUI d8 (R227). -/
def execSui (d8 : Byte) (s : State) : Host.Outcome State Fault Refusal :=
  retire (.sui d8) (opAlui .sub d8) s

/-- SBI d8 (R228). -/
def execSbi (d8 : Byte) (s : State) : Host.Outcome State Fault Refusal :=
  retire (.sbi d8) (opAlui .sbb d8) s

/-- CPI d8 (R229). -/
def execCpi (d8 : Byte) (s : State) : Host.Outcome State Fault Refusal :=
  retire (.cpi d8) (opAlui .cmp d8) s

/-- INR B (R230). -/
def execInrB (s : State) : Host.Outcome State Fault Refusal :=
  retire .inrB (opInr (.reg .B)) s

/-- INR C (R230). -/
def execInrC (s : State) : Host.Outcome State Fault Refusal :=
  retire .inrC (opInr (.reg .C)) s

/-- INR D (R230). -/
def execInrD (s : State) : Host.Outcome State Fault Refusal :=
  retire .inrD (opInr (.reg .D)) s

/-- INR E (R230). -/
def execInrE (s : State) : Host.Outcome State Fault Refusal :=
  retire .inrE (opInr (.reg .E)) s

/-- INR H (R230). -/
def execInrH (s : State) : Host.Outcome State Fault Refusal :=
  retire .inrH (opInr (.reg .H)) s

/-- INR L (R230). -/
def execInrL (s : State) : Host.Outcome State Fault Refusal :=
  retire .inrL (opInr (.reg .L)) s

/-- INR M (R230). -/
def execInrM (s : State) : Host.Outcome State Fault Refusal :=
  retire .inrM (opInr .mem) s

/-- INR A (R230). -/
def execInrA (s : State) : Host.Outcome State Fault Refusal :=
  retire .inrA (opInr (.reg .A)) s

/-- DCR B (R231). -/
def execDcrB (s : State) : Host.Outcome State Fault Refusal :=
  retire .dcrB (opDcr (.reg .B)) s

/-- DCR C (R231). -/
def execDcrC (s : State) : Host.Outcome State Fault Refusal :=
  retire .dcrC (opDcr (.reg .C)) s

/-- DCR D (R231). -/
def execDcrD (s : State) : Host.Outcome State Fault Refusal :=
  retire .dcrD (opDcr (.reg .D)) s

/-- DCR E (R231). -/
def execDcrE (s : State) : Host.Outcome State Fault Refusal :=
  retire .dcrE (opDcr (.reg .E)) s

/-- DCR H (R231). -/
def execDcrH (s : State) : Host.Outcome State Fault Refusal :=
  retire .dcrH (opDcr (.reg .H)) s

/-- DCR L (R231). -/
def execDcrL (s : State) : Host.Outcome State Fault Refusal :=
  retire .dcrL (opDcr (.reg .L)) s

/-- DCR M (R231). -/
def execDcrM (s : State) : Host.Outcome State Fault Refusal :=
  retire .dcrM (opDcr .mem) s

/-- DCR A (R231). -/
def execDcrA (s : State) : Host.Outcome State Fault Refusal :=
  retire .dcrA (opDcr (.reg .A)) s

/-- INX B (R232). -/
def execInxB (s : State) : Host.Outcome State Fault Refusal :=
  retire .inxB (opInx (.pair .BC)) s

/-- INX D (R232). -/
def execInxD (s : State) : Host.Outcome State Fault Refusal :=
  retire .inxD (opInx (.pair .DE)) s

/-- INX H (R232). -/
def execInxH (s : State) : Host.Outcome State Fault Refusal :=
  retire .inxH (opInx (.pair .HL)) s

/-- INX SP (R232). -/
def execInxSP (s : State) : Host.Outcome State Fault Refusal :=
  retire .inxSP (opInx .sp) s

/-- DCX B (R233). -/
def execDcxB (s : State) : Host.Outcome State Fault Refusal :=
  retire .dcxB (opDcx (.pair .BC)) s

/-- DCX D (R233). -/
def execDcxD (s : State) : Host.Outcome State Fault Refusal :=
  retire .dcxD (opDcx (.pair .DE)) s

/-- DCX H (R233). -/
def execDcxH (s : State) : Host.Outcome State Fault Refusal :=
  retire .dcxH (opDcx (.pair .HL)) s

/-- DCX SP (R233). -/
def execDcxSP (s : State) : Host.Outcome State Fault Refusal :=
  retire .dcxSP (opDcx .sp) s

/-- DAD B (R234). -/
def execDadB (s : State) : Host.Outcome State Fault Refusal :=
  retire .dadB (opDad (.pair .BC)) s

/-- DAD D (R234). -/
def execDadD (s : State) : Host.Outcome State Fault Refusal :=
  retire .dadD (opDad (.pair .DE)) s

/-- DAD H (R234). -/
def execDadH (s : State) : Host.Outcome State Fault Refusal :=
  retire .dadH (opDad (.pair .HL)) s

/-- DAD SP (R234). -/
def execDadSP (s : State) : Host.Outcome State Fault Refusal :=
  retire .dadSP (opDad .sp) s

/-- DAA (R235). -/
def execDaa (s : State) : Host.Outcome State Fault Refusal :=
  retire .daa opDaa s

end Sys2Proof.Machine
end

