-- ==== Sys2Proof/Machine/Branch.lean ====
section
/-! DEFINITION. The branching instructions (46_branch.md R270 to R301): the shared operations, then one meaning for each
instruction. None writes a flag or a general register. -/

namespace Sys2Proof.Machine

/-- JMP (R271). -/
def opJmp (a16 : Word) : Stage := transfer (fun _ s => s) (fun _ => a16)

/-- The conditional jumps (R272 to R279). -/
def opJcc (c : Cond) (a16 : Word) : Stage := conditional (fun s => condHolds s.flags c) (opJmp a16)

/-- CALL: push the fall-through address, then go to `a16` (R280). -/
def opCall (a16 : Word) : Stage := transfer (fun next s => s.push16 next) (fun _ => a16)

/-- The conditional calls (R281 to R288). -/
def opCcc (c : Cond) (a16 : Word) : Stage := conditional (fun s => condHolds s.flags c) (opCall a16)

/-- RET: go to the popped address (R289). -/
def opRet : Stage := transfer (fun _ s => s.popSp) (fun s => s.popValue)

/-- The conditional returns (R290 to R297). -/
def opRcc (c : Cond) : Stage := conditional (fun s => condHolds s.flags c) opRet

/-- PCHL (R298). -/
def opPchl : Stage := transfer (fun _ s => s) (fun s => s.hl)

/-- RST n: push the fall-through address, then go to `8 * n` (R299). -/
def opRst (n : Fin 8) : Stage := transfer (fun next s => s.push16 next) (fun _ => BitVec.ofNat 16 (8 * n.val))

/-- RNZ (R290). -/
def execRnz (s : State) : Host.Outcome State Fault Refusal :=
  retire .rnz (opRcc .NZ) s

/-- JNZ a16 (R272). -/
def execJnz (a16 : Word) (s : State) : Host.Outcome State Fault Refusal :=
  retire (.jnz a16) (opJcc .NZ a16) s

/-- JMP a16 (R271). -/
def execJmp (a16 : Word) (s : State) : Host.Outcome State Fault Refusal :=
  retire (.jmp a16) (opJmp a16) s

/-- CNZ a16 (R281). -/
def execCnz (a16 : Word) (s : State) : Host.Outcome State Fault Refusal :=
  retire (.cnz a16) (opCcc .NZ a16) s

/-- RST 0 (R299). -/
def execRst0 (s : State) : Host.Outcome State Fault Refusal :=
  retire .rst0 (opRst 0) s

/-- RZ (R291). -/
def execRz (s : State) : Host.Outcome State Fault Refusal :=
  retire .rz (opRcc .Z) s

/-- RET (R289). -/
def execRet (s : State) : Host.Outcome State Fault Refusal :=
  retire .ret opRet s

/-- JZ a16 (R273). -/
def execJz (a16 : Word) (s : State) : Host.Outcome State Fault Refusal :=
  retire (.jz a16) (opJcc .Z a16) s

/-- CZ a16 (R282). -/
def execCz (a16 : Word) (s : State) : Host.Outcome State Fault Refusal :=
  retire (.cz a16) (opCcc .Z a16) s

/-- CALL a16 (R280). -/
def execCall (a16 : Word) (s : State) : Host.Outcome State Fault Refusal :=
  retire (.call a16) (opCall a16) s

/-- RST 1 (R299). -/
def execRst1 (s : State) : Host.Outcome State Fault Refusal :=
  retire .rst1 (opRst 1) s

/-- RNC (R292). -/
def execRnc (s : State) : Host.Outcome State Fault Refusal :=
  retire .rnc (opRcc .NC) s

/-- JNC a16 (R274). -/
def execJnc (a16 : Word) (s : State) : Host.Outcome State Fault Refusal :=
  retire (.jnc a16) (opJcc .NC a16) s

/-- CNC a16 (R283). -/
def execCnc (a16 : Word) (s : State) : Host.Outcome State Fault Refusal :=
  retire (.cnc a16) (opCcc .NC a16) s

/-- RST 2 (R299). -/
def execRst2 (s : State) : Host.Outcome State Fault Refusal :=
  retire .rst2 (opRst 2) s

/-- RC (R293). -/
def execRc (s : State) : Host.Outcome State Fault Refusal :=
  retire .rc (opRcc .C) s

/-- JC a16 (R275). -/
def execJc (a16 : Word) (s : State) : Host.Outcome State Fault Refusal :=
  retire (.jc a16) (opJcc .C a16) s

/-- CC a16 (R284). -/
def execCc (a16 : Word) (s : State) : Host.Outcome State Fault Refusal :=
  retire (.cc a16) (opCcc .C a16) s

/-- RST 3 (R299). -/
def execRst3 (s : State) : Host.Outcome State Fault Refusal :=
  retire .rst3 (opRst 3) s

/-- RPO (R294). -/
def execRpo (s : State) : Host.Outcome State Fault Refusal :=
  retire .rpo (opRcc .PO) s

/-- JPO a16 (R276). -/
def execJpo (a16 : Word) (s : State) : Host.Outcome State Fault Refusal :=
  retire (.jpo a16) (opJcc .PO a16) s

/-- CPO a16 (R285). -/
def execCpo (a16 : Word) (s : State) : Host.Outcome State Fault Refusal :=
  retire (.cpo a16) (opCcc .PO a16) s

/-- RST 4 (R299). -/
def execRst4 (s : State) : Host.Outcome State Fault Refusal :=
  retire .rst4 (opRst 4) s

/-- RPE (R295). -/
def execRpe (s : State) : Host.Outcome State Fault Refusal :=
  retire .rpe (opRcc .PE) s

/-- PCHL (R298). -/
def execPchl (s : State) : Host.Outcome State Fault Refusal :=
  retire .pchl opPchl s

/-- JPE a16 (R277). -/
def execJpe (a16 : Word) (s : State) : Host.Outcome State Fault Refusal :=
  retire (.jpe a16) (opJcc .PE a16) s

/-- CPE a16 (R286). -/
def execCpe (a16 : Word) (s : State) : Host.Outcome State Fault Refusal :=
  retire (.cpe a16) (opCcc .PE a16) s

/-- RST 5 (R299). -/
def execRst5 (s : State) : Host.Outcome State Fault Refusal :=
  retire .rst5 (opRst 5) s

/-- RP (R296). -/
def execRp (s : State) : Host.Outcome State Fault Refusal :=
  retire .rp (opRcc .P) s

/-- JP a16 (R278). -/
def execJp (a16 : Word) (s : State) : Host.Outcome State Fault Refusal :=
  retire (.jp a16) (opJcc .P a16) s

/-- CP a16 (R287). -/
def execCp (a16 : Word) (s : State) : Host.Outcome State Fault Refusal :=
  retire (.cp a16) (opCcc .P a16) s

/-- RST 6 (R299). -/
def execRst6 (s : State) : Host.Outcome State Fault Refusal :=
  retire .rst6 (opRst 6) s

/-- RM (R297). -/
def execRm (s : State) : Host.Outcome State Fault Refusal :=
  retire .rm (opRcc .M) s

/-- JM a16 (R279). -/
def execJm (a16 : Word) (s : State) : Host.Outcome State Fault Refusal :=
  retire (.jm a16) (opJcc .M a16) s

/-- CM a16 (R288). -/
def execCm (a16 : Word) (s : State) : Host.Outcome State Fault Refusal :=
  retire (.cm a16) (opCcc .M a16) s

/-- RST 7 (R299). -/
def execRst7 (s : State) : Host.Outcome State Fault Refusal :=
  retire .rst7 (opRst 7) s

end Sys2Proof.Machine
end

