-- ==== Sys2Proof/Machine/DataTransfer.lean ====
section
/-! DEFINITION. The data transfer instructions (43_data_transfer.md R200 to R213): the shared operations, then one meaning
for each instruction. None writes a flag. -/

namespace Sys2Proof.Machine

/-- MOV (R200 to R202). -/
def opMov (d src : Opnd) : Stage := sequential fun s => s.writeOpnd d (s.readOpnd src)

/-- MVI (R203, R204). -/
def opMvi (d : Opnd) (d8 : Byte) : Stage := sequential fun s => s.writeOpnd d d8

/-- LXI (R205). -/
def opLxi (p : Rp) (d16 : Word) : Stage := sequential fun s => s.setRp p d16

/-- LDA (R206). -/
def opLda (a16 : Word) : Stage := sequential fun s => s.setReg .A (s.load8 a16)

/-- STA (R207). -/
def opSta (a16 : Word) : Stage := sequential fun s => s.store8 a16 s.a

/-- LHLD: L from `a16`, H from `a16 + 1` (R208). -/
def opLhld (a16 : Word) : Stage := sequential fun s => s.setPair .HL (s.load16 a16)

/-- SHLD: L to `a16`, H to `a16 + 1` (R209). -/
def opShld (a16 : Word) : Stage := sequential fun s => s.store16 a16 s.hl

/-- LDAX (R210). -/
def opLdax (p : IndPair) : Stage := sequential fun s => s.setReg .A (s.load8 (s.indirect p))

/-- STAX (R211). -/
def opStax (p : IndPair) : Stage := sequential fun s => s.store8 (s.indirect p) s.a

/-- XCHG: HL and DE exchanged at once (R212). -/
def opXchg : Stage := sequential fun s => { s with h := s.d, l := s.e, d := s.h, e := s.l }

/-- MOV B,B (R200). -/
def execMovBB (s : State) : Host.Outcome State Fault Refusal :=
  retire .movBB (opMov (.reg .B) (.reg .B)) s

/-- MOV B,C (R200). -/
def execMovBC (s : State) : Host.Outcome State Fault Refusal :=
  retire .movBC (opMov (.reg .B) (.reg .C)) s

/-- MOV B,D (R200). -/
def execMovBD (s : State) : Host.Outcome State Fault Refusal :=
  retire .movBD (opMov (.reg .B) (.reg .D)) s

/-- MOV B,E (R200). -/
def execMovBE (s : State) : Host.Outcome State Fault Refusal :=
  retire .movBE (opMov (.reg .B) (.reg .E)) s

/-- MOV B,H (R200). -/
def execMovBH (s : State) : Host.Outcome State Fault Refusal :=
  retire .movBH (opMov (.reg .B) (.reg .H)) s

/-- MOV B,L (R200). -/
def execMovBL (s : State) : Host.Outcome State Fault Refusal :=
  retire .movBL (opMov (.reg .B) (.reg .L)) s

/-- MOV B,M (R201). -/
def execMovBM (s : State) : Host.Outcome State Fault Refusal :=
  retire .movBM (opMov (.reg .B) .mem) s

/-- MOV B,A (R200). -/
def execMovBA (s : State) : Host.Outcome State Fault Refusal :=
  retire .movBA (opMov (.reg .B) (.reg .A)) s

/-- MOV C,B (R200). -/
def execMovCB (s : State) : Host.Outcome State Fault Refusal :=
  retire .movCB (opMov (.reg .C) (.reg .B)) s

/-- MOV C,C (R200). -/
def execMovCC (s : State) : Host.Outcome State Fault Refusal :=
  retire .movCC (opMov (.reg .C) (.reg .C)) s

/-- MOV C,D (R200). -/
def execMovCD (s : State) : Host.Outcome State Fault Refusal :=
  retire .movCD (opMov (.reg .C) (.reg .D)) s

/-- MOV C,E (R200). -/
def execMovCE (s : State) : Host.Outcome State Fault Refusal :=
  retire .movCE (opMov (.reg .C) (.reg .E)) s

/-- MOV C,H (R200). -/
def execMovCH (s : State) : Host.Outcome State Fault Refusal :=
  retire .movCH (opMov (.reg .C) (.reg .H)) s

/-- MOV C,L (R200). -/
def execMovCL (s : State) : Host.Outcome State Fault Refusal :=
  retire .movCL (opMov (.reg .C) (.reg .L)) s

/-- MOV C,M (R201). -/
def execMovCM (s : State) : Host.Outcome State Fault Refusal :=
  retire .movCM (opMov (.reg .C) .mem) s

/-- MOV C,A (R200). -/
def execMovCA (s : State) : Host.Outcome State Fault Refusal :=
  retire .movCA (opMov (.reg .C) (.reg .A)) s

/-- MOV D,B (R200). -/
def execMovDB (s : State) : Host.Outcome State Fault Refusal :=
  retire .movDB (opMov (.reg .D) (.reg .B)) s

/-- MOV D,C (R200). -/
def execMovDC (s : State) : Host.Outcome State Fault Refusal :=
  retire .movDC (opMov (.reg .D) (.reg .C)) s

/-- MOV D,D (R200). -/
def execMovDD (s : State) : Host.Outcome State Fault Refusal :=
  retire .movDD (opMov (.reg .D) (.reg .D)) s

/-- MOV D,E (R200). -/
def execMovDE (s : State) : Host.Outcome State Fault Refusal :=
  retire .movDE (opMov (.reg .D) (.reg .E)) s

/-- MOV D,H (R200). -/
def execMovDH (s : State) : Host.Outcome State Fault Refusal :=
  retire .movDH (opMov (.reg .D) (.reg .H)) s

/-- MOV D,L (R200). -/
def execMovDL (s : State) : Host.Outcome State Fault Refusal :=
  retire .movDL (opMov (.reg .D) (.reg .L)) s

/-- MOV D,M (R201). -/
def execMovDM (s : State) : Host.Outcome State Fault Refusal :=
  retire .movDM (opMov (.reg .D) .mem) s

/-- MOV D,A (R200). -/
def execMovDA (s : State) : Host.Outcome State Fault Refusal :=
  retire .movDA (opMov (.reg .D) (.reg .A)) s

/-- MOV E,B (R200). -/
def execMovEB (s : State) : Host.Outcome State Fault Refusal :=
  retire .movEB (opMov (.reg .E) (.reg .B)) s

/-- MOV E,C (R200). -/
def execMovEC (s : State) : Host.Outcome State Fault Refusal :=
  retire .movEC (opMov (.reg .E) (.reg .C)) s

/-- MOV E,D (R200). -/
def execMovED (s : State) : Host.Outcome State Fault Refusal :=
  retire .movED (opMov (.reg .E) (.reg .D)) s

/-- MOV E,E (R200). -/
def execMovEE (s : State) : Host.Outcome State Fault Refusal :=
  retire .movEE (opMov (.reg .E) (.reg .E)) s

/-- MOV E,H (R200). -/
def execMovEH (s : State) : Host.Outcome State Fault Refusal :=
  retire .movEH (opMov (.reg .E) (.reg .H)) s

/-- MOV E,L (R200). -/
def execMovEL (s : State) : Host.Outcome State Fault Refusal :=
  retire .movEL (opMov (.reg .E) (.reg .L)) s

/-- MOV E,M (R201). -/
def execMovEM (s : State) : Host.Outcome State Fault Refusal :=
  retire .movEM (opMov (.reg .E) .mem) s

/-- MOV E,A (R200). -/
def execMovEA (s : State) : Host.Outcome State Fault Refusal :=
  retire .movEA (opMov (.reg .E) (.reg .A)) s

/-- MOV H,B (R200). -/
def execMovHB (s : State) : Host.Outcome State Fault Refusal :=
  retire .movHB (opMov (.reg .H) (.reg .B)) s

/-- MOV H,C (R200). -/
def execMovHC (s : State) : Host.Outcome State Fault Refusal :=
  retire .movHC (opMov (.reg .H) (.reg .C)) s

/-- MOV H,D (R200). -/
def execMovHD (s : State) : Host.Outcome State Fault Refusal :=
  retire .movHD (opMov (.reg .H) (.reg .D)) s

/-- MOV H,E (R200). -/
def execMovHE (s : State) : Host.Outcome State Fault Refusal :=
  retire .movHE (opMov (.reg .H) (.reg .E)) s

/-- MOV H,H (R200). -/
def execMovHH (s : State) : Host.Outcome State Fault Refusal :=
  retire .movHH (opMov (.reg .H) (.reg .H)) s

/-- MOV H,L (R200). -/
def execMovHL (s : State) : Host.Outcome State Fault Refusal :=
  retire .movHL (opMov (.reg .H) (.reg .L)) s

/-- MOV H,M (R201). -/
def execMovHM (s : State) : Host.Outcome State Fault Refusal :=
  retire .movHM (opMov (.reg .H) .mem) s

/-- MOV H,A (R200). -/
def execMovHA (s : State) : Host.Outcome State Fault Refusal :=
  retire .movHA (opMov (.reg .H) (.reg .A)) s

/-- MOV L,B (R200). -/
def execMovLB (s : State) : Host.Outcome State Fault Refusal :=
  retire .movLB (opMov (.reg .L) (.reg .B)) s

/-- MOV L,C (R200). -/
def execMovLC (s : State) : Host.Outcome State Fault Refusal :=
  retire .movLC (opMov (.reg .L) (.reg .C)) s

/-- MOV L,D (R200). -/
def execMovLD (s : State) : Host.Outcome State Fault Refusal :=
  retire .movLD (opMov (.reg .L) (.reg .D)) s

/-- MOV L,E (R200). -/
def execMovLE (s : State) : Host.Outcome State Fault Refusal :=
  retire .movLE (opMov (.reg .L) (.reg .E)) s

/-- MOV L,H (R200). -/
def execMovLH (s : State) : Host.Outcome State Fault Refusal :=
  retire .movLH (opMov (.reg .L) (.reg .H)) s

/-- MOV L,L (R200). -/
def execMovLL (s : State) : Host.Outcome State Fault Refusal :=
  retire .movLL (opMov (.reg .L) (.reg .L)) s

/-- MOV L,M (R201). -/
def execMovLM (s : State) : Host.Outcome State Fault Refusal :=
  retire .movLM (opMov (.reg .L) .mem) s

/-- MOV L,A (R200). -/
def execMovLA (s : State) : Host.Outcome State Fault Refusal :=
  retire .movLA (opMov (.reg .L) (.reg .A)) s

/-- MOV M,B (R202). -/
def execMovMB (s : State) : Host.Outcome State Fault Refusal :=
  retire .movMB (opMov .mem (.reg .B)) s

/-- MOV M,C (R202). -/
def execMovMC (s : State) : Host.Outcome State Fault Refusal :=
  retire .movMC (opMov .mem (.reg .C)) s

/-- MOV M,D (R202). -/
def execMovMD (s : State) : Host.Outcome State Fault Refusal :=
  retire .movMD (opMov .mem (.reg .D)) s

/-- MOV M,E (R202). -/
def execMovME (s : State) : Host.Outcome State Fault Refusal :=
  retire .movME (opMov .mem (.reg .E)) s

/-- MOV M,H (R202). -/
def execMovMH (s : State) : Host.Outcome State Fault Refusal :=
  retire .movMH (opMov .mem (.reg .H)) s

/-- MOV M,L (R202). -/
def execMovML (s : State) : Host.Outcome State Fault Refusal :=
  retire .movML (opMov .mem (.reg .L)) s

/-- MOV M,A (R202). -/
def execMovMA (s : State) : Host.Outcome State Fault Refusal :=
  retire .movMA (opMov .mem (.reg .A)) s

/-- MOV A,B (R200). -/
def execMovAB (s : State) : Host.Outcome State Fault Refusal :=
  retire .movAB (opMov (.reg .A) (.reg .B)) s

/-- MOV A,C (R200). -/
def execMovAC (s : State) : Host.Outcome State Fault Refusal :=
  retire .movAC (opMov (.reg .A) (.reg .C)) s

/-- MOV A,D (R200). -/
def execMovAD (s : State) : Host.Outcome State Fault Refusal :=
  retire .movAD (opMov (.reg .A) (.reg .D)) s

/-- MOV A,E (R200). -/
def execMovAE (s : State) : Host.Outcome State Fault Refusal :=
  retire .movAE (opMov (.reg .A) (.reg .E)) s

/-- MOV A,H (R200). -/
def execMovAH (s : State) : Host.Outcome State Fault Refusal :=
  retire .movAH (opMov (.reg .A) (.reg .H)) s

/-- MOV A,L (R200). -/
def execMovAL (s : State) : Host.Outcome State Fault Refusal :=
  retire .movAL (opMov (.reg .A) (.reg .L)) s

/-- MOV A,M (R201). -/
def execMovAM (s : State) : Host.Outcome State Fault Refusal :=
  retire .movAM (opMov (.reg .A) .mem) s

/-- MOV A,A (R200). -/
def execMovAA (s : State) : Host.Outcome State Fault Refusal :=
  retire .movAA (opMov (.reg .A) (.reg .A)) s

/-- MVI B,d8 (R203). -/
def execMviB (d8 : Byte) (s : State) : Host.Outcome State Fault Refusal :=
  retire (.mviB d8) (opMvi (.reg .B) d8) s

/-- MVI C,d8 (R203). -/
def execMviC (d8 : Byte) (s : State) : Host.Outcome State Fault Refusal :=
  retire (.mviC d8) (opMvi (.reg .C) d8) s

/-- MVI D,d8 (R203). -/
def execMviD (d8 : Byte) (s : State) : Host.Outcome State Fault Refusal :=
  retire (.mviD d8) (opMvi (.reg .D) d8) s

/-- MVI E,d8 (R203). -/
def execMviE (d8 : Byte) (s : State) : Host.Outcome State Fault Refusal :=
  retire (.mviE d8) (opMvi (.reg .E) d8) s

/-- MVI H,d8 (R203). -/
def execMviH (d8 : Byte) (s : State) : Host.Outcome State Fault Refusal :=
  retire (.mviH d8) (opMvi (.reg .H) d8) s

/-- MVI L,d8 (R203). -/
def execMviL (d8 : Byte) (s : State) : Host.Outcome State Fault Refusal :=
  retire (.mviL d8) (opMvi (.reg .L) d8) s

/-- MVI M,d8 (R204). -/
def execMviM (d8 : Byte) (s : State) : Host.Outcome State Fault Refusal :=
  retire (.mviM d8) (opMvi .mem d8) s

/-- MVI A,d8 (R203). -/
def execMviA (d8 : Byte) (s : State) : Host.Outcome State Fault Refusal :=
  retire (.mviA d8) (opMvi (.reg .A) d8) s

/-- LXI B,d16 (R205). -/
def execLxiB (d16 : Word) (s : State) : Host.Outcome State Fault Refusal :=
  retire (.lxiB d16) (opLxi (.pair .BC) d16) s

/-- LXI D,d16 (R205). -/
def execLxiD (d16 : Word) (s : State) : Host.Outcome State Fault Refusal :=
  retire (.lxiD d16) (opLxi (.pair .DE) d16) s

/-- LXI H,d16 (R205). -/
def execLxiH (d16 : Word) (s : State) : Host.Outcome State Fault Refusal :=
  retire (.lxiH d16) (opLxi (.pair .HL) d16) s

/-- LXI SP,d16 (R205). -/
def execLxiSP (d16 : Word) (s : State) : Host.Outcome State Fault Refusal :=
  retire (.lxiSP d16) (opLxi .sp d16) s

/-- LDA a16 (R206). -/
def execLda (a16 : Word) (s : State) : Host.Outcome State Fault Refusal :=
  retire (.lda a16) (opLda a16) s

/-- STA a16 (R207). -/
def execSta (a16 : Word) (s : State) : Host.Outcome State Fault Refusal :=
  retire (.sta a16) (opSta a16) s

/-- LHLD a16 (R208). -/
def execLhld (a16 : Word) (s : State) : Host.Outcome State Fault Refusal :=
  retire (.lhld a16) (opLhld a16) s

/-- SHLD a16 (R209). -/
def execShld (a16 : Word) (s : State) : Host.Outcome State Fault Refusal :=
  retire (.shld a16) (opShld a16) s

/-- LDAX B (R210). -/
def execLdaxB (s : State) : Host.Outcome State Fault Refusal :=
  retire .ldaxB (opLdax .BC) s

/-- LDAX D (R210). -/
def execLdaxD (s : State) : Host.Outcome State Fault Refusal :=
  retire .ldaxD (opLdax .DE) s

/-- STAX B (R211). -/
def execStaxB (s : State) : Host.Outcome State Fault Refusal :=
  retire .staxB (opStax .BC) s

/-- STAX D (R211). -/
def execStaxD (s : State) : Host.Outcome State Fault Refusal :=
  retire .staxD (opStax .DE) s

/-- XCHG (R212). -/
def execXchg (s : State) : Host.Outcome State Fault Refusal :=
  retire .xchg opXchg s

end Sys2Proof.Machine
end

