-- ==== Sys2Proof/Machine/Logical.lean ====
section
/-! DEFINITION. The logical, rotate and carry instructions (45_logical.md R250 to R263): the shared operations, then one
meaning for each instruction. The boolean instructions share `opAlu` and `opAlui` with the arithmetic family. -/

namespace Sys2Proof.Machine

/-- RLC (R256). -/
def opRlc : Stage := sequential fun s => s.setACy (rlcResult s.a)

/-- RRC (R257). -/
def opRrc : Stage := sequential fun s => s.setACy (rrcResult s.a)

/-- RAL (R258). -/
def opRal : Stage := sequential fun s => s.setACy (ralResult s.a s.flags.cy)

/-- RAR (R259). -/
def opRar : Stage := sequential fun s => s.setACy (rarResult s.a s.flags.cy)

/-- CMA: no flag (R260). -/
def opCma : Stage := sequential fun s => s.setReg .A (~~~s.a)

/-- CMC (R261). -/
def opCmc : Stage := sequential fun s => s.setFlags { s.flags with cy := !s.flags.cy }

/-- STC (R262). -/
def opStc : Stage := sequential fun s => s.setFlags { s.flags with cy := true }

/-- ANA B (R250). -/
def execAnaB (s : State) : Host.Outcome State Fault Refusal :=
  retire .anaB (opAlu .ana (.reg .B)) s

/-- ANA C (R250). -/
def execAnaC (s : State) : Host.Outcome State Fault Refusal :=
  retire .anaC (opAlu .ana (.reg .C)) s

/-- ANA D (R250). -/
def execAnaD (s : State) : Host.Outcome State Fault Refusal :=
  retire .anaD (opAlu .ana (.reg .D)) s

/-- ANA E (R250). -/
def execAnaE (s : State) : Host.Outcome State Fault Refusal :=
  retire .anaE (opAlu .ana (.reg .E)) s

/-- ANA H (R250). -/
def execAnaH (s : State) : Host.Outcome State Fault Refusal :=
  retire .anaH (opAlu .ana (.reg .H)) s

/-- ANA L (R250). -/
def execAnaL (s : State) : Host.Outcome State Fault Refusal :=
  retire .anaL (opAlu .ana (.reg .L)) s

/-- ANA M (R250). -/
def execAnaM (s : State) : Host.Outcome State Fault Refusal :=
  retire .anaM (opAlu .ana .mem) s

/-- ANA A (R250). -/
def execAnaA (s : State) : Host.Outcome State Fault Refusal :=
  retire .anaA (opAlu .ana (.reg .A)) s

/-- ORA B (R251). -/
def execOraB (s : State) : Host.Outcome State Fault Refusal :=
  retire .oraB (opAlu .ora (.reg .B)) s

/-- ORA C (R251). -/
def execOraC (s : State) : Host.Outcome State Fault Refusal :=
  retire .oraC (opAlu .ora (.reg .C)) s

/-- ORA D (R251). -/
def execOraD (s : State) : Host.Outcome State Fault Refusal :=
  retire .oraD (opAlu .ora (.reg .D)) s

/-- ORA E (R251). -/
def execOraE (s : State) : Host.Outcome State Fault Refusal :=
  retire .oraE (opAlu .ora (.reg .E)) s

/-- ORA H (R251). -/
def execOraH (s : State) : Host.Outcome State Fault Refusal :=
  retire .oraH (opAlu .ora (.reg .H)) s

/-- ORA L (R251). -/
def execOraL (s : State) : Host.Outcome State Fault Refusal :=
  retire .oraL (opAlu .ora (.reg .L)) s

/-- ORA M (R251). -/
def execOraM (s : State) : Host.Outcome State Fault Refusal :=
  retire .oraM (opAlu .ora .mem) s

/-- ORA A (R251). -/
def execOraA (s : State) : Host.Outcome State Fault Refusal :=
  retire .oraA (opAlu .ora (.reg .A)) s

/-- XRA B (R252). -/
def execXraB (s : State) : Host.Outcome State Fault Refusal :=
  retire .xraB (opAlu .xra (.reg .B)) s

/-- XRA C (R252). -/
def execXraC (s : State) : Host.Outcome State Fault Refusal :=
  retire .xraC (opAlu .xra (.reg .C)) s

/-- XRA D (R252). -/
def execXraD (s : State) : Host.Outcome State Fault Refusal :=
  retire .xraD (opAlu .xra (.reg .D)) s

/-- XRA E (R252). -/
def execXraE (s : State) : Host.Outcome State Fault Refusal :=
  retire .xraE (opAlu .xra (.reg .E)) s

/-- XRA H (R252). -/
def execXraH (s : State) : Host.Outcome State Fault Refusal :=
  retire .xraH (opAlu .xra (.reg .H)) s

/-- XRA L (R252). -/
def execXraL (s : State) : Host.Outcome State Fault Refusal :=
  retire .xraL (opAlu .xra (.reg .L)) s

/-- XRA M (R252). -/
def execXraM (s : State) : Host.Outcome State Fault Refusal :=
  retire .xraM (opAlu .xra .mem) s

/-- XRA A (R252). -/
def execXraA (s : State) : Host.Outcome State Fault Refusal :=
  retire .xraA (opAlu .xra (.reg .A)) s

/-- ANI d8 (R253). -/
def execAni (d8 : Byte) (s : State) : Host.Outcome State Fault Refusal :=
  retire (.ani d8) (opAlui .ana d8) s

/-- ORI d8 (R254). -/
def execOri (d8 : Byte) (s : State) : Host.Outcome State Fault Refusal :=
  retire (.ori d8) (opAlui .ora d8) s

/-- XRI d8 (R255). -/
def execXri (d8 : Byte) (s : State) : Host.Outcome State Fault Refusal :=
  retire (.xri d8) (opAlui .xra d8) s

/-- RLC (R256). -/
def execRlc (s : State) : Host.Outcome State Fault Refusal :=
  retire .rlc opRlc s

/-- RRC (R257). -/
def execRrc (s : State) : Host.Outcome State Fault Refusal :=
  retire .rrc opRrc s

/-- RAL (R258). -/
def execRal (s : State) : Host.Outcome State Fault Refusal :=
  retire .ral opRal s

/-- RAR (R259). -/
def execRar (s : State) : Host.Outcome State Fault Refusal :=
  retire .rar opRar s

/-- CMA (R260). -/
def execCma (s : State) : Host.Outcome State Fault Refusal :=
  retire .cma opCma s

/-- CMC (R261). -/
def execCmc (s : State) : Host.Outcome State Fault Refusal :=
  retire .cmc opCmc s

/-- STC (R262). -/
def execStc (s : State) : Host.Outcome State Fault Refusal :=
  retire .stc opStc s

end Sys2Proof.Machine
end

