-- ==== Sys2Proof/Machine/StackControl.lean ====
section
/-! DEFINITION. The stack, I/O and machine-control instructions (47_stack_control.md R310 to R324): the shared operations,
then one meaning for each instruction. -/

namespace Sys2Proof.Machine

/-- PUSH (R310, R311). -/
def opPush (q : Rq) : Stage := sequential fun s => s.push16 (s.rq q)

/-- POP (R312, R313). -/
def opPop (q : Rq) : Stage := sequential fun s => s.popSp.setRq q s.popValue

/-- XTHL: L with the byte at SP, H with the byte at SP+1; SP unchanged (R314). -/
def opXthl : Stage := sequential fun s => (s.store16 s.sp s.hl).setPair .HL (s.load16 s.sp)

/-- SPHL (R315). -/
def opSphl : Stage := sequential fun s => { s with sp := s.hl }

/-- No state change but the fall-through and the charge (R316). -/
def opNop : Stage := sequential fun s => s

/-- EI: accepted, no state change (R317). -/
def opEi : Stage := sequential fun s => s

/-- DI: accepted, no state change (R318). -/
def opDi : Stage := sequential fun s => s

/-- IN: nothing architectural; A is not written (R319). The log line is `stepLog` of Machine/HostOps.lean. -/
def opIn (_port : Byte) : Stage := sequential fun s => s

/-- OUT: nothing architectural (R320). The log line is `stepLog` of Machine/HostOps.lean. -/
def opOut (_port : Byte) : Stage := sequential fun s => s

/-- RIM: accepted, no state change; A is not written (R322). -/
def opRim : Stage := sequential fun s => s

/-- SIM: accepted, no state change (R323). -/
def opSim : Stage := sequential fun s => s

/-- HLT: enter the halted state and pin PC at the instruction's own address (R321). -/
def opHlt : Stage := fun _ s => ⟨s.enterHalt, s.pc, false⟩

/-- PUSH B (R310). -/
def execPushB (s : State) : Host.Outcome State Fault Refusal :=
  retire .pushB (opPush (.pair .BC)) s

/-- PUSH D (R310). -/
def execPushD (s : State) : Host.Outcome State Fault Refusal :=
  retire .pushD (opPush (.pair .DE)) s

/-- PUSH H (R310). -/
def execPushH (s : State) : Host.Outcome State Fault Refusal :=
  retire .pushH (opPush (.pair .HL)) s

/-- PUSH PSW (R311). -/
def execPushPSW (s : State) : Host.Outcome State Fault Refusal :=
  retire .pushPSW (opPush .psw) s

/-- POP B (R312). -/
def execPopB (s : State) : Host.Outcome State Fault Refusal :=
  retire .popB (opPop (.pair .BC)) s

/-- POP D (R312). -/
def execPopD (s : State) : Host.Outcome State Fault Refusal :=
  retire .popD (opPop (.pair .DE)) s

/-- POP H (R312). -/
def execPopH (s : State) : Host.Outcome State Fault Refusal :=
  retire .popH (opPop (.pair .HL)) s

/-- POP PSW (R313). -/
def execPopPSW (s : State) : Host.Outcome State Fault Refusal :=
  retire .popPSW (opPop .psw) s

/-- XTHL (R314). -/
def execXthl (s : State) : Host.Outcome State Fault Refusal :=
  retire .xthl opXthl s

/-- SPHL (R315). -/
def execSphl (s : State) : Host.Outcome State Fault Refusal :=
  retire .sphl opSphl s

/-- NOP (R316). -/
def execNop (s : State) : Host.Outcome State Fault Refusal :=
  retire .nop opNop s

/-- EI (R317). -/
def execEi (s : State) : Host.Outcome State Fault Refusal :=
  retire .ei opEi s

/-- DI (R318). -/
def execDi (s : State) : Host.Outcome State Fault Refusal :=
  retire .di opDi s

/-- IN port (R319). -/
def execIn (port : Byte) (s : State) : Host.Outcome State Fault Refusal :=
  retire (.inPort port) (opIn port) s

/-- OUT port (R320). -/
def execOut (port : Byte) (s : State) : Host.Outcome State Fault Refusal :=
  retire (.outPort port) (opOut port) s

/-- HLT (R321). -/
def execHlt (s : State) : Host.Outcome State Fault Refusal :=
  retire .hlt opHlt s

/-- RIM (R322). -/
def execRim (s : State) : Host.Outcome State Fault Refusal :=
  retire .rim opRim s

/-- SIM (R323). -/
def execSim (s : State) : Host.Outcome State Fault Refusal :=
  retire .sim opSim s

end Sys2Proof.Machine
end

