-- ==== Sys2Proof/Machine/OpcodeTable.lean ====
section
/-! DEFINITION. The Opcode Table of the assembler: its 246 keys and their lookup (40_assembler.md R101 to R103), and the text
of a record for an opcode byte. -/

namespace Sys2Proof.Machine

/-- A key of the opcode table: the upper-case mnemonic, the operands that belong to the key, its shape, and the instruction
it stands for, with a value operand of 0 (40_assembler.md R101, R102). -/
structure OpcodeKey where
  mnemonic : Text
  operands : List Text
  shape : KeyShape
  instr : Instr
  deriving DecidableEq, Repr

/-- The key's byte in the default table (30_encoding.md R76 to R84). -/
def OpcodeKey.opcode (k : OpcodeKey) : Byte := k.instr.form.opcode

/-- The operands of a signature, joined by single commas (40_assembler.md R102). -/
def joinComma : List Text → Text
  | [] => []
  | [t] => t
  | t :: rest => t ++ ',' :: joinComma rest

/-- The signature text: the mnemonic, then, if there are operands, one space and the operands joined by commas
(40_assembler.md R102). -/
def signature (mn : Text) (ops : List Text) : Text :=
  match ops with
  | [] => mn
  | _ :: _ => mn ++ ' ' :: joinComma ops

/-- The key's text. -/
def OpcodeKey.text (k : OpcodeKey) : Text := signature k.mnemonic k.operands

/-- The name of a register-or-M operand (30_encoding.md R90). -/
def opndName : Opnd → Text
  | .reg .A => ['A']
  | .reg .B => ['B']
  | .reg .C => ['C']
  | .reg .D => ['D']
  | .reg .E => ['E']
  | .reg .H => ['H']
  | .reg .L => ['L']
  | .mem => ['M']

/-- A pair is named by its high register (10_state.md R23). -/
def pairName : Pair → Text
  | .BC => ['B']
  | .DE => ['D']
  | .HL => ['H']

/-- The name of an rp operand (30_encoding.md R90). -/
def rpName : Rp → Text
  | .pair p => pairName p
  | .sp => ['S', 'P']

/-- The name of an rq operand (30_encoding.md R90). -/
def rqName : Rq → Text
  | .pair p => pairName p
  | .psw => ['P', 'S', 'W']

/-- The name of a condition (46_branch.md R270). -/
def condName : Cond → Text
  | .NZ => ['N', 'Z']
  | .Z => ['Z']
  | .NC => ['N', 'C']
  | .C => ['C']
  | .PO => ['P', 'O']
  | .PE => ['P', 'E']
  | .P => ['P']
  | .M => ['M']

/-- The mnemonic of an ALU operation with a register-or-M operand (30_encoding.md R71). -/
def aluName : AluOp → Text
  | .add => ['A', 'D', 'D']
  | .adc => ['A', 'D', 'C']
  | .sub => ['S', 'U', 'B']
  | .sbb => ['S', 'B', 'B']
  | .ana => ['A', 'N', 'A']
  | .xra => ['X', 'R', 'A']
  | .ora => ['O', 'R', 'A']
  | .cmp => ['C', 'M', 'P']

/-- The mnemonic of an immediate ALU operation (30_encoding.md R71). -/
def aluiName : AluOp → Text
  | .add => ['A', 'D', 'I']
  | .adc => ['A', 'C', 'I']
  | .sub => ['S', 'U', 'I']
  | .sbb => ['S', 'B', 'I']
  | .ana => ['A', 'N', 'I']
  | .xra => ['X', 'R', 'I']
  | .ora => ['O', 'R', 'I']
  | .cmp => ['C', 'P', 'I']

/-- The operands r-or-M, in the order of 40_assembler.md R102. -/
def allOpnds : List Opnd :=
  [.reg .B, .reg .C, .reg .D, .reg .E, .reg .H, .reg .L, .mem, .reg .A]

/-- The operands rp. -/
def allRps : List Rp := [.pair .BC, .pair .DE, .pair .HL, .sp]

/-- The operands rq. -/
def allRqs : List Rq := [.pair .BC, .pair .DE, .pair .HL, .psw]

/-- The conditions. -/
def allConds : List Cond := [.NZ, .Z, .NC, .C, .PO, .PE, .P, .M]

/-- The ALU operations. -/
def allAluOps : List AluOp := [.add, .adc, .sub, .sbb, .ana, .xra, .ora, .cmp]

/-- The keys of one letter with each condition behind it, given their instructions in the order of the conditions. -/
def condKeys (letter : Char) (shape : KeyShape) (l : List Instr) : List OpcodeKey :=
  List.zipWith (fun c i => ⟨letter :: condName c, [], shape, i⟩) allConds l

/-- The keys of one mnemonic with each operand r-or-M, given their instructions in the order of the operands. -/
def opndKeys (mn : Text) (shape : KeyShape) (l : List Instr) : List OpcodeKey :=
  List.zipWith (fun o i => ⟨mn, [opndName o], shape, i⟩) allOpnds l

/-- The keys of one mnemonic with each operand rp. -/
def rpKeys (mn : Text) (shape : KeyShape) (l : List Instr) : List OpcodeKey :=
  List.zipWith (fun p i => ⟨mn, [rpName p], shape, i⟩) allRps l

/-- The keys of one mnemonic with each operand rq. -/
def rqKeys (mn : Text) (l : List Instr) : List OpcodeKey :=
  List.zipWith (fun q i => ⟨mn, [rqName q], .K1, i⟩) allRqs l

/-- The keys of MOV to one destination, from the sources given. -/
def movKeys (d : Opnd) (sources : List Opnd) (l : List Instr) : List OpcodeKey :=
  List.zipWith (fun o i => ⟨['M', 'O', 'V'], [opndName d, opndName o], .K2, i⟩) sources l

/-- The 27 keys of shape K0 (40_assembler.md R102). -/
def keysK0 : List OpcodeKey :=
  [⟨['N', 'O', 'P'], [], .K0, .nop⟩, ⟨['H', 'L', 'T'], [], .K0, .hlt⟩, ⟨['X', 'C', 'H', 'G'], [], .K0, .xchg⟩,
   ⟨['D', 'A', 'A'], [], .K0, .daa⟩, ⟨['R', 'L', 'C'], [], .K0, .rlc⟩, ⟨['R', 'R', 'C'], [], .K0, .rrc⟩,
   ⟨['R', 'A', 'L'], [], .K0, .ral⟩, ⟨['R', 'A', 'R'], [], .K0, .rar⟩, ⟨['C', 'M', 'A'], [], .K0, .cma⟩,
   ⟨['C', 'M', 'C'], [], .K0, .cmc⟩, ⟨['S', 'T', 'C'], [], .K0, .stc⟩, ⟨['R', 'E', 'T'], [], .K0, .ret⟩,
   ⟨['P', 'C', 'H', 'L'], [], .K0, .pchl⟩, ⟨['X', 'T', 'H', 'L'], [], .K0, .xthl⟩,
   ⟨['S', 'P', 'H', 'L'], [], .K0, .sphl⟩, ⟨['E', 'I'], [], .K0, .ei⟩, ⟨['D', 'I'], [], .K0, .di⟩,
   ⟨['R', 'I', 'M'], [], .K0, .rim⟩, ⟨['S', 'I', 'M'], [], .K0, .sim⟩]
    ++ condKeys 'R' .K0 [.rnz, .rz, .rnc, .rc, .rpo, .rpe, .rp, .rm]

/-- The 32 keys of shape K0v (40_assembler.md R102). -/
def keysK0v : List OpcodeKey :=
  [⟨['L', 'D', 'A'], [], .K0v, .lda 0⟩, ⟨['S', 'T', 'A'], [], .K0v, .sta 0⟩,
   ⟨['L', 'H', 'L', 'D'], [], .K0v, .lhld 0⟩, ⟨['S', 'H', 'L', 'D'], [], .K0v, .shld 0⟩,
   ⟨['J', 'M', 'P'], [], .K0v, .jmp 0⟩, ⟨['C', 'A', 'L', 'L'], [], .K0v, .call 0⟩, ⟨['I', 'N'], [], .K0v, .inPort 0⟩,
   ⟨['O', 'U', 'T'], [], .K0v, .outPort 0⟩]
    ++ condKeys 'J' .K0v [.jnz 0, .jz 0, .jnc 0, .jc 0, .jpo 0, .jpe 0, .jp 0, .jm 0]
    ++ condKeys 'C' .K0v [.cnz 0, .cz 0, .cnc 0, .cc 0, .cpo 0, .cpe 0, .cp 0, .cm 0]
    ++ List.zipWith (fun op i => ⟨aluiName op, [], .K0v, i⟩) allAluOps
      [.adi 0, .aci 0, .sui 0, .sbi 0, .ani 0, .xri 0, .ori 0, .cpi 0]

/-- The 112 keys of shape K1 (40_assembler.md R102). -/
def keysK1 : List OpcodeKey :=
  opndKeys (aluName .add) .K1 [.addB, .addC, .addD, .addE, .addH, .addL, .addM, .addA]
    ++ opndKeys (aluName .adc) .K1 [.adcB, .adcC, .adcD, .adcE, .adcH, .adcL, .adcM, .adcA]
    ++ opndKeys (aluName .sub) .K1 [.subB, .subC, .subD, .subE, .subH, .subL, .subM, .subA]
    ++ opndKeys (aluName .sbb) .K1 [.sbbB, .sbbC, .sbbD, .sbbE, .sbbH, .sbbL, .sbbM, .sbbA]
    ++ opndKeys (aluName .ana) .K1 [.anaB, .anaC, .anaD, .anaE, .anaH, .anaL, .anaM, .anaA]
    ++ opndKeys (aluName .xra) .K1 [.xraB, .xraC, .xraD, .xraE, .xraH, .xraL, .xraM, .xraA]
    ++ opndKeys (aluName .ora) .K1 [.oraB, .oraC, .oraD, .oraE, .oraH, .oraL, .oraM, .oraA]
    ++ opndKeys (aluName .cmp) .K1 [.cmpB, .cmpC, .cmpD, .cmpE, .cmpH, .cmpL, .cmpM, .cmpA]
    ++ opndKeys ['I', 'N', 'R'] .K1 [.inrB, .inrC, .inrD, .inrE, .inrH, .inrL, .inrM, .inrA]
    ++ opndKeys ['D', 'C', 'R'] .K1 [.dcrB, .dcrC, .dcrD, .dcrE, .dcrH, .dcrL, .dcrM, .dcrA]
    ++ rpKeys ['I', 'N', 'X'] .K1 [.inxB, .inxD, .inxH, .inxSP]
    ++ rpKeys ['D', 'C', 'X'] .K1 [.dcxB, .dcxD, .dcxH, .dcxSP]
    ++ rpKeys ['D', 'A', 'D'] .K1 [.dadB, .dadD, .dadH, .dadSP]
    ++ [⟨['L', 'D', 'A', 'X'], [['B']], .K1, .ldaxB⟩, ⟨['L', 'D', 'A', 'X'], [['D']], .K1, .ldaxD⟩,
        ⟨['S', 'T', 'A', 'X'], [['B']], .K1, .staxB⟩, ⟨['S', 'T', 'A', 'X'], [['D']], .K1, .staxD⟩]
    ++ rqKeys ['P', 'U', 'S', 'H'] [.pushB, .pushD, .pushH, .pushPSW]
    ++ rqKeys ['P', 'O', 'P'] [.popB, .popD, .popH, .popPSW]
    ++ List.zipWith (fun n i => ⟨['R', 'S', 'T'], [[Char.ofNat (0x30 + n)]], .K1, i⟩) (List.range 8)
      [.rst0, .rst1, .rst2, .rst3, .rst4, .rst5, .rst6, .rst7]

/-- The 12 keys of shape K1v (40_assembler.md R102). -/
def keysK1v : List OpcodeKey :=
  opndKeys ['M', 'V', 'I'] .K1v [.mviB 0, .mviC 0, .mviD 0, .mviE 0, .mviH 0, .mviL 0, .mviM 0, .mviA 0]
    ++ rpKeys ['L', 'X', 'I'] .K1v [.lxiB 0, .lxiD 0, .lxiH 0, .lxiSP 0]

/-- The 63 keys of shape K2: destination and source not both M (40_assembler.md R102, 30_encoding.md R76). -/
def keysK2 : List OpcodeKey :=
  movKeys (.reg .B) allOpnds [.movBB, .movBC, .movBD, .movBE, .movBH, .movBL, .movBM, .movBA]
    ++ movKeys (.reg .C) allOpnds [.movCB, .movCC, .movCD, .movCE, .movCH, .movCL, .movCM, .movCA]
    ++ movKeys (.reg .D) allOpnds [.movDB, .movDC, .movDD, .movDE, .movDH, .movDL, .movDM, .movDA]
    ++ movKeys (.reg .E) allOpnds [.movEB, .movEC, .movED, .movEE, .movEH, .movEL, .movEM, .movEA]
    ++ movKeys (.reg .H) allOpnds [.movHB, .movHC, .movHD, .movHE, .movHH, .movHL, .movHM, .movHA]
    ++ movKeys (.reg .L) allOpnds [.movLB, .movLC, .movLD, .movLE, .movLH, .movLL, .movLM, .movLA]
    ++ movKeys .mem (allOpnds.filter (· ≠ .mem)) [.movMB, .movMC, .movMD, .movME, .movMH, .movML, .movMA]
    ++ movKeys (.reg .A) allOpnds [.movAB, .movAC, .movAD, .movAE, .movAH, .movAL, .movAM, .movAA]

/-- The opcode table (40_assembler.md R101, R102). -/
def opcodeTable : List OpcodeKey := keysK0 ++ keysK0v ++ keysK1 ++ keysK1v ++ keysK2

/-- The key with a given text, if it is one. -/
def findKey (t : Text) : Option OpcodeKey := opcodeTable.find? fun k => k.text == t

/-- Upper case, for the letters a to z (40_assembler.md R107; assumption log 14). -/
def upper (t : Text) : Text := t.map Char.toUpper

/-- `lookup(MN, ops)`: the exact signature, then the mnemonic alone, then the mnemonic with its first operand; operands are
upper-cased here only (40_assembler.md R103). -/
def lookup (mn : Text) (ops : List Text) : Option OpcodeKey :=
  let ops := ops.map upper
  match findKey (signature mn ops) with
  | some k => some k
  | none =>
    match findKey mn with
    | some k => some k
    | none =>
      match ops with
      | [] => none
      | o :: _ => findKey (signature mn [o])

/-- The mnemonics of length 2 (30_encoding.md R72). -/
def twoByteMnemonics : List Text :=
  [['M', 'V', 'I'], ['A', 'D', 'I'], ['A', 'C', 'I'], ['S', 'U', 'I'], ['S', 'B', 'I'], ['A', 'N', 'I'], ['O', 'R', 'I'], ['X', 'R', 'I'], ['C', 'P', 'I'], ['I', 'N'], ['O', 'U', 'T']]

/-- The mnemonics of length 3 (30_encoding.md R72). -/
def threeByteMnemonics : List Text :=
  [['L', 'X', 'I'], ['L', 'D', 'A'], ['S', 'T', 'A'], ['L', 'H', 'L', 'D'], ['S', 'H', 'L', 'D'], ['J', 'M', 'P'], ['J', 'N', 'Z'], ['J', 'Z'], ['J', 'N', 'C'], ['J', 'C'], ['J', 'P', 'O'], ['J', 'P', 'E'], ['J', 'P'], ['J', 'M'], ['C', 'A', 'L', 'L'], ['C', 'N', 'Z'], ['C', 'Z'], ['C', 'N', 'C'], ['C', 'C'], ['C', 'P', 'O'], ['C', 'P', 'E'], ['C', 'P'], ['C', 'M']]

/-- The fixed length table: a function of the mnemonic alone (30_encoding.md R72). DESIGN CHOICE: no setting of P4 changes a
length (assumption log 25). -/
def mnemonicLength (mn : Text) : Nat :=
  if mn ∈ twoByteMnemonics then 2 else if mn ∈ threeByteMnemonics then 3 else 1

/-- The character of a hexadecimal digit: from 0x30 for 0 to 9, from 0x41 for A to F (40_assembler.md R124). -/
def hexDigit (n : Nat) : Char :=
  let d := n % 16
  Char.ofNat (if d < 10 then 0x30 + d else 0x41 + (d - 10))

/-- A value as a hexadecimal numeral of the source language: a leading 0, four digits, the suffix H
(40_assembler.md R124). -/
def numeralText (v : Word) : Text :=
  '0' :: [3, 2, 1, 0].map (fun k => hexDigit (v.toNat / 16 ^ k)) ++ ['H']

/-- The mnemonic and operand texts of a record for an instruction: the texts of its key, then its value operand where the
key's shape has one. -/
def recordText (i : Instr) : Text × List Text :=
  match opcodeTable.find? fun k => k.instr == i.withOperand 0 with
  | some k =>
    match k.shape with
    | .K0v | .K1v => (k.mnemonic, k.operands ++ [numeralText i.operand])
    | .K0 | .K1 | .K2 => (k.mnemonic, k.operands)
  | none => ([], [])

/-! ### The bytes of the opcodes, parameter P4 -/

/-- The byte a list of changes gives a signature that is named by its default byte. -/
def changedByte (changes : List (Byte × Byte)) (b : Byte) : Byte :=
  match changes with
  | [] => b
  | (d, v) :: rest => if d = b then v else changedByte rest b

/-- `OPCODE`: the byte of an instruction's signature under parameter P4; HLT's is FIXED (00_scope.md R6 P3, P4;
40_assembler.md R103). -/
def opcodeByte (c : Config) (i : Instr) : Byte :=
  if i = .hlt then 0x76 else changedByte c.opcode i.form.opcode

/-- The bytes of an instruction under parameter P4 (30_encoding.md R70). -/
def encodeWith (c : Config) (i : Instr) : List Byte := opcodeByte c i :: i.form.operandBytes

end Sys2Proof.Machine
end

