-- ==== Sys2Proof/Machine/Fetch.lean ====
section
/-! DEFINITION. The fetch of a step: the halted check, the lookup by record, the raw-0x76 test, the operand value
(42_step_engine.md R163 to R166, 60_exceptions.md R356), and placing an instruction where the next step fetches. -/

namespace Sys2Proof.Machine

/-- P3 HLT_OPCODE (00_scope.md R6). -/
def hltOpcode : Byte := 0x76

/-- The record whose address equals PC, if any (42_step_engine.md R164). -/
def findRecord (prog : List Record) (pc : Word) : Option Record := prog.find? fun r => r.address == pc

/-- The instruction a record at PC executes: the one it names, with `val(rec)` as its operand, or with the operand in the
bytes at PC+1 and PC+2 read now, by parameter P7. An 8-bit operand is the low byte of these, `MemRead(PC + 1, 1)`. The byte at
PC and the record's opcode byte are not consulted (42_step_engine.md R165, R166). -/
def recordInstr (s : State) (r : Record) : Instr :=
  match s.cfg.operandSource with
  | .record => r.instr
  | .memory => r.instr.withOperand (s.load16 (s.pc + 1))

/-- What the checks of a step find, in their order (60_exceptions.md R356). -/
inductive Fetched where
  /-- `halted = 1`: the step is refused and changes nothing (R354) -/
  | refused
  /-- a record at PC: this instruction is executed -/
  | run (i : Instr)
  /-- no record, and the byte at PC is 0x76 -/
  | rawHalt
  /-- no record, and another byte, be it one of the ten undefined ones or not (30_encoding.md R87) -/
  | failure
  deriving DecidableEq, Repr

/-- Steps 1 to 3 of the step algorithm (42_step_engine.md R163 to R166). -/
def fetch (s : State) : Fetched :=
  if s.halted then .refused
  else
    match findRecord s.prog s.pc with
    | some r => .run (recordInstr s r)
    | none => if s.load8 s.pc = hltOpcode then .rawHalt else .failure

/-- The value `step()` returns: true exactly when a record was executed (42_step_engine.md R162, 60_exceptions.md R367). -/
def stepReturns (s : State) : Bool :=
  match fetch s with
  | .run _ => true
  | .refused | .rawHalt | .failure => false

/-- Write bytes from address `a` up (40_assembler.md R118, R119). -/
def writeBytes (m : Memory) (a : Word) : List Byte → Memory
  | [] => m
  | b :: rest => writeBytes (m.write a b) (a + 1) rest

/-- The record of an instruction at PC, as pass 2 would have made it (40_assembler.md R128). -/
def recordAt (s : State) (i : Instr) : Record where
  address := s.pc
  mnemonic := (recordText i).1
  operands := (recordText i).2
  opcode := opcodeByte s.cfg i
  instr := i
  sourceLine := 1

/-- The state with an instruction placed at PC as `assemble` would have placed it: its record in the program table and its
bytes in memory. A word that is no instruction makes no record: only its first byte is stored, and no record is at PC
(30_encoding.md R87). A halted engine is set running, so that the next step fetches (assumption log 12). -/
def placeWord (s : State) (nbits w : Nat) : State :=
  let others := s.prog.filter (fun r => r.address ≠ s.pc)
  match decodeTableWord nbits w with
  | some i =>
    { s with
      halted := false
      mem := writeBytes s.mem s.pc (encodeWith s.cfg i)
      prog := recordAt s i :: others }
  | none =>
    { s with
      halted := false
      mem := s.mem.write s.pc (BitVec.ofNat 8 (w % 2 ^ nbits))
      prog := others }

end Sys2Proof.Machine
end

