-- ==== Sys2Proof/Machine/Step.lean ====
section
/-! DEFINITION. One step of the engine (42_step_engine.md R162 to R173). The boolean the operation returns is `stepReturns`
of Machine/Fetch.lean; how the five ways a step can end (60_exceptions.md R367) are outcomes is assumption log 10. -/

namespace Sys2Proof.Machine

/-- The whole step (42_step_engine.md R173): a refused step changes nothing, a record is executed, a raw 0x76 byte halts, and
everything else is the step failure. -/
def step (s : State) : Host.Outcome State Fault Refusal :=
  match fetch s with
  | .refused => .next s
  | .run i => exec i s
  | .rawHalt => .next s.enterHalt
  | .failure => raiseStepFailure

/-- The state whose next step fetches and runs the instruction with the bits `w` (assumption log 12). -/
def State.withFetchWord (s : State) (nbits w : Nat) : State := placeWord s nbits w

end Sys2Proof.Machine
end

