-- ==== Sys2Proof/Machine/Assembler.lean ====
section
/-! DEFINITION. The two-pass assembler, the host operation `assemble` (40_assembler.md R100 to R137). -/

namespace Sys2Proof.Machine

/-! ## Lines and tokens -/

/-- Cut a text at every character that `sep` holds of; empty pieces are kept. -/
def cutAt (sep : Char → Bool) : Text → List Text
  | [] => [[]]
  | c :: rest =>
    if sep c then [] :: cutAt sep rest
    else
      match cutAt sep rest with
      | [] => [[c]]
      | piece :: more => (c :: piece) :: more

/-- Spaces and tabs (40_assembler.md R105). -/
def isBlank (c : Char) : Bool := c == ' ' || c == '\t'

/-- Leading and trailing spaces and tabs removed (40_assembler.md R105). -/
def trim (t : Text) : Text := ((t.dropWhile isBlank).reverse.dropWhile isBlank).reverse

/-- A carriage return at the end of a line is dropped (40_assembler.md R104). -/
def dropCarriageReturn (t : Text) : Text :=
  if t.getLast? = some '\r' then t.dropLast else t

/-- The first `;` and everything after it removed, then trimmed (40_assembler.md R105). -/
def stripLine (t : Text) : Text := trim ((dropCarriageReturn t).takeWhile (· ≠ ';'))

/-- The label name, empty if there is none, and the remaining content: the first colon divides them (40_assembler.md R106). -/
def splitLabel (t : Text) : Text × Text :=
  if ':' ∈ t then (trim (t.takeWhile (· ≠ ':')), trim ((t.dropWhile (· ≠ ':')).drop 1)) else ([], t)

/-- The tokens of a line's content: cut at runs of spaces, tabs and commas (40_assembler.md R107). -/
def tokens (t : Text) : List Text := (cutAt (fun c => isBlank c || c == ',') t).filter (· ≠ [])

/-- A line as both passes see it: its number, its label (empty if none), and its mnemonic token in upper case with the
operand tokens as written, absent on a blank or label-only line (40_assembler.md R104 to R107). -/
structure Line where
  number : Nat
  label : Text
  content : Option (Text × List Text)
  deriving DecidableEq, Repr

/-- The mnemonic and operand tokens of a line's content; content without a token has an empty mnemonic, which is no key
(assumption log 22). -/
def lineTokens (rest : Text) : Text × List Text :=
  match tokens rest with
  | [] => ([], [])
  | mn :: ops => (upper mn, ops)

/-- Read one line (40_assembler.md R105 to R107). -/
def parseLine (number : Nat) (raw : Text) : Line :=
  let parts := splitLabel (stripLine raw)
  { number := number
    label := parts.1
    content := if parts.2 = [] then none else some (lineTokens parts.2) }

/-- Number lines from `n` up and read them. -/
def parseLines : Nat → List Text → List Line
  | _, [] => []
  | n, raw :: rest => parseLine n raw :: parseLines (n + 1) rest

/-- The lines of a source text, cut at line feeds and numbered from 1 (40_assembler.md R104). -/
def sourceLines (text : Text) : List Line := parseLines 1 (cutAt (· == '\n') text)

/-- The key of a recognised line with its tokens; none on a blank, label-only or unrecognised line (40_assembler.md R109). -/
def Line.recognised (ln : Line) : Option (OpcodeKey × Text × List Text) :=
  match ln.content with
  | none => none
  | some (mn, ops) => (lookup mn ops).map fun k => (k, mn, ops)

/-- A non-blank, non-label-only line that the lookup does not find (40_assembler.md R109, R129). -/
def Line.unrecognised (ln : Line) : Bool := ln.content.isSome && ln.recognised.isNone

/-! ## Pass 1 -/

/-- P1 LOAD_ADDRESS (00_scope.md R6). -/
def loadAddress : Nat := 0x8000

/-- The address of a label, if it is defined. -/
def labelAddress (labels : LabelTable) (name : Text) : Option Word :=
  match labels with
  | [] => none
  | (n, a) :: rest => if n = name then some a else labelAddress rest name

/-- `Labels[name] <- a`: a later definition overwrites an earlier one (40_assembler.md R113). -/
def setLabel (labels : LabelTable) (name : Text) (a : Word) : LabelTable :=
  match labels with
  | [] => [(name, a)]
  | (n, w) :: rest => if n = name then (n, a) :: rest else (n, w) :: setLabel rest name a

/-- The bytes a line takes: the length of its mnemonic if it is recognised, else 0 (40_assembler.md R112). -/
def Line.length (ln : Line) : Nat :=
  match ln.recognised with
  | some (_, mn, _) => mnemonicLength mn
  | none => 0

/-- Record a line's label at the cursor (40_assembler.md R111; assumption log 15 for the address 0x10000). -/
def recordLabel (labels : LabelTable) (ln : Line) (cur : Nat) : LabelTable :=
  if ln.label = [] then labels else setLabel labels ln.label (BitVec.ofNat 16 cur)

/-- Pass 1 from a cursor: the labels and the cursor after the last line (40_assembler.md R110 to R114). -/
def pass1 : Nat → LabelTable → List Line → LabelTable × Nat
  | cur, labels, [] => (labels, cur)
  | cur, labels, ln :: rest => pass1 (cur + ln.length) (recordLabel labels ln cur) rest

/-! ## The value parser -/

/-- A value of parameter P9 `parseNumeral`: text to natural number or failure, for the digits before an `H` and for a decimal token
(00_scope.md R6, 40_assembler.md R121). -/
structure Numerals where
  hex : Text → Option Nat
  dec : Text → Option Nat

/-- The digit that a character is among `count` consecutive ones, of which `first` has the value `low`. -/
def digitAmong (first : Char) (count low : Nat) (c : Char) : Option Nat :=
  if c.toNat ∈ (List.range count).map (first.toNat + ·) then some (low + (c.toNat - first.toNat)) else none

/-- The value of a decimal digit (40_assembler.md R124). -/
def decDigitValue : Char → Option Nat := digitAmong '0' 10 0

/-- The value of a hexadecimal digit, its letters in either case (40_assembler.md R124). -/
def hexDigitValue (c : Char) : Option Nat :=
  [decDigitValue, digitAmong 'A' 6 10, digitAmong 'a' 6 10].findSome? fun digit => digit c

/-- The number that digits denote after a leading part of value `acc`. -/
def parseDigits (digit : Char → Option Nat) (base : Nat) : Nat → Text → Option Nat
  | acc, [] => some acc
  | acc, c :: rest =>
    match digit c with
    | some d => parseDigits digit base (acc * base + d) rest
    | none => none

/-- A nonempty string of digits (40_assembler.md R124). -/
def parseNumber (digit : Char → Option Nat) (base : Nat) (t : Text) : Option Nat :=
  if t = [] then none else parseDigits digit base 0 t

/-- The strict default of P9 (40_assembler.md R124). -/
def strictNumerals : Numerals where
  hex := parseNumber hexDigitValue 16
  dec := parseNumber decDigitValue 10

/-- A text's reading: the one a list gives it, else that of the grammar. -/
def readText (readings : List (Text × Option Nat)) (grammar : Text → Option Nat) (t : Text) : Option Nat :=
  match readings with
  | [] => grammar t
  | (tok, v) :: rest => if tok = t then v else readText rest grammar t

/-- The value of P9 that a setting stands for: the strict grammar but for the texts the setting lists (00_scope.md R6;
assumption log 6). -/
def configuredNumerals (n : NumeralReadings) : Numerals where
  hex := readText n.hex strictNumerals.hex
  dec := readText n.dec strictNumerals.dec

/-- The token ends in `H` or `h` (40_assembler.md R121). -/
def endsInH (t : Text) : Bool := t.getLast? == some 'H' || t.getLast? == some 'h'

/-- The value parser before its default: a known label, then a hexadecimal numeral, then a decimal one; none is a parse
failure (40_assembler.md R121). -/
def tokenValue (num : Numerals) (labels : LabelTable) (tok : Text) : Option Nat :=
  match labelAddress labels tok with
  | some a => some a.toNat
  | none => if endsInH tok then num.hex tok.dropLast else num.dec tok

/-- The value operand's token, by the shape of the matched key (40_assembler.md R120). -/
def valueToken (shape : KeyShape) (ops : List Text) : Option Text :=
  match shape with
  | .K0v => ops[0]?
  | .K1v => ops[1]?
  | .K0 | .K1 | .K2 => none

/-- The value of the operand before its default: none when its token is missing or malformed (40_assembler.md R120, R125). -/
def operandNumber (num : Numerals) (labels : LabelTable) (shape : KeyShape) (ops : List Text) : Option Nat :=
  (valueToken shape ops).bind (tokenValue num labels)

/-- `value` with the default 0 (40_assembler.md R120, R121, R125). -/
def operandNat (num : Numerals) (labels : LabelTable) (shape : KeyShape) (ops : List Text) : Nat :=
  (operandNumber num labels shape ops).getD 0

/-- `val(rec)`: the value cut to the operand's field, by the instruction's length (10_state.md R37, 40_assembler.md R126). -/
def cutValue (length v : Nat) : Word :=
  match length with
  | 2 => BitVec.ofNat 16 (v % 256)
  | 3 => BitVec.ofNat 16 v
  | _ => 0

/-! ## Pass 2 -/

/-- What pass 2 has made so far: the cursor, memory, the program table, and the line numbers of unrecognised lines and of
lines whose value operand did not parse. -/
structure Image where
  cur : Nat
  mem : Memory
  prog : List Record
  unrecognised : List Nat
  malformed : List Nat

/-- Write an instruction's bytes at the cursor: the opcode, then `v mod 256`, then `(v div 256) mod 256`
(40_assembler.md R118, R119). -/
def emitBytes (m : Memory) (cur length : Nat) (op : Byte) (v : Nat) : Memory :=
  let m1 := m.write (BitVec.ofNat 16 cur) op
  match length with
  | 2 => m1.write (BitVec.ofNat 16 (cur + 1)) (BitVec.ofNat 8 v)
  | 3 => (m1.write (BitVec.ofNat 16 (cur + 1)) (BitVec.ofNat 8 v)).write (BitVec.ofNat 16 (cur + 2)) (BitVec.ofNat 8 (v / 256))
  | _ => m1

/-- Whether a key's value operand is missing or malformed (40_assembler.md R125). -/
def isMalformed (num : Numerals) (labels : LabelTable) (shape : KeyShape) (ops : List Text) : Bool :=
  match shape with
  | .K0v | .K1v => (operandNumber num labels shape ops).isNone
  | .K0 | .K1 | .K2 => false

/-- Pass 2 on a recognised line: bytes, then the record (40_assembler.md R118 to R128). -/
def emit (c : Config) (num : Numerals) (labels : LabelTable) (img : Image) (number : Nat) (k : OpcodeKey) (mn : Text)
    (ops : List Text) : Image :=
  let length := mnemonicLength mn
  let v := operandNat num labels k.shape ops
  let op := opcodeByte c k.instr
  { cur := img.cur + length
    mem := emitBytes img.mem img.cur length op v
    prog := img.prog ++ [⟨BitVec.ofNat 16 img.cur, mn, ops, op, k.instr.withOperand (cutValue length v), number⟩]
    unrecognised := img.unrecognised
    malformed := if isMalformed num labels k.shape ops then img.malformed ++ [number] else img.malformed }

/-- Pass 2 on one line (40_assembler.md R117, R129). -/
def pass2Line (c : Config) (num : Numerals) (labels : LabelTable) (img : Image) (ln : Line) : Image :=
  match ln.recognised with
  | some (k, mn, ops) => emit c num labels img ln.number k mn ops
  | none => if ln.unrecognised then { img with unrecognised := img.unrecognised ++ [ln.number] } else img

/-- Pass 2 over all lines in order (40_assembler.md R116, R117). -/
def pass2 (c : Config) (num : Numerals) (labels : LabelTable) (img : Image) (lns : List Line) : Image :=
  lns.foldl (pass2Line c num labels) img

/-- The image before pass 2's first line (40_assembler.md R116). -/
def emptyImage (m : Memory) : Image := ⟨loadAddress, m, [], [], []⟩

/-! ## The operation -/

/-- What `assemble` returns to the host: the success flag, the count of records, the line numbers it warns about, the lines a
`diagnostic` policy reports, and the message (40_assembler.md R125, R129, R130, R132). -/
structure Report where
  success : Bool
  count : Nat
  unrecognised : List Nat
  malformed : List Nat
  message : Text

/-- Numbers in decimal, with commas between. -/
def numberList : List Nat → Text
  | [] => []
  | [n] => Nat.toDigits 10 n
  | n :: rest => Nat.toDigits 10 n ++ ',' :: numberList rest

/-- The message: any wording around the count of records, or around the offending lines when the `error` policy fails; the
lines of a `diagnostic` policy follow the count (40_assembler.md R125, R130, R132; assumption log 17). -/
def reportMessage (success : Bool) (count : Nat) (unrecognised malformed : List Nat) : Text :=
  Config.messageBefore success count
    ++ numberList (if success then count :: malformed else unrecognised)
    ++ Config.messageAfter success count

/-- The report of an assembly. -/
def mkReport (success : Bool) (count : Nat) (unrecognised malformed : List Nat) : Report :=
  ⟨success, count, unrecognised, malformed, reportMessage success count unrecognised malformed⟩

/-- The line numbers `diagnostic` reports; `zero` reports none (parameter P11, 40_assembler.md R125). -/
def reportedMalformed (policy : MalformedNumeralPolicy) (lns : List Nat) : List Nat :=
  match policy with
  | .zero => []
  | .diagnostic => lns

/-- On entry `assemble` clears the label table, the program table and the halted flag (40_assembler.md R108). -/
def State.clearForAssembly (s : State) : State := { s with labels := [], prog := [], halted := false }

/-- The state and report of an assembly whose image fits and whose lines the policy lets pass (40_assembler.md R110 to
R132). -/
def assembleLines (num : Numerals) (lns : List Line) (s : State) : State × Report :=
  let labels := (pass1 loadAddress [] lns).1
  let img := pass2 s.cfg num labels (emptyImage s.mem) lns
  ({ s.clearForAssembly with
      labels := labels
      mem := img.mem
      prog := img.prog
      pc := if img.prog = [] then s.pc else BitVec.ofNat 16 loadAddress },
    mkReport true img.prog.length img.unrecognised (reportedMalformed s.cfg.malformedNumeral img.malformed))

/-- The line numbers of the unrecognised lines. -/
def unrecognisedLines (lns : List Line) : List Nat := (lns.filter Line.unrecognised).map Line.number

/-- `assemble(sourceText)` with parameter P9 as an argument. A text whose image would pass 0xFFFF is refused (R134). Under
the `error` policy an unrecognised line makes the operation clear the tables and the halted flag and do nothing more
(40_assembler.md R100, R130). -/
def assembleWith (num : Numerals) (text : Text) (s : State) : Host.Outcome (State × Report) Fault Refusal :=
  let lns := sourceLines text
  if (pass1 loadAddress [] lns).2 > 0x10000 then .refused .imageTooLarge
  else if s.cfg.unresolvedLine = .error ∧ unrecognisedLines lns ≠ [] then
    .next (s.clearForAssembly, mkReport false 0 (unrecognisedLines lns) [])
  else .next (assembleLines num lns s)

/-- `assemble(sourceText)` under the machine's setting of P9 (40_assembler.md R124, R137). -/
def assemble (text : Text) (s : State) : Host.Outcome (State × Report) Fault Refusal :=
  assembleWith (configuredNumerals s.cfg.numerals) text s

end Sys2Proof.Machine
end

