-- ==== Sys2Proof/Machine/HostOps.lean ====
section
/-! DEFINITION. The host's operations (42_step_engine.md R162, R175 to R182; 10_state.md R40), each a function of the state
and its arguments. -/

namespace Sys2Proof.Machine

/-- The state of a newly constructed engine equals the state after `reset` (70_reset_and_hazards.md R381). -/
def powerOn : State := State.reset

/-- `reset()`: every field at its reset value, whatever the state before; the configuration is fixed for the life of the
machine and stays (42_step_engine.md R178; assumption log 1). -/
def hostReset (s : State) : State := { State.reset with cfg := s.cfg }

/-- `step() -> boolean`: the state after it and the value it returns; a step failure returns false and leaves the state as it
was (42_step_engine.md R173, 60_exceptions.md R367). -/
def hostStep (s : State) : State × Bool :=
  match step s with
  | .next t => (t, stepReturns s)
  | .fault _ => (s, false)
  | .refused _ => (s, false)

/-- How a `run` ends (42_step_engine.md R175). -/
inductive RunEnd where
  | halted
  | failed
  | ceiling
  deriving DecidableEq, Repr

/-- `run()` with the iteration ceiling P6 as its argument: the state, the number of successful steps, and how the loop ended
(42_step_engine.md R175). -/
def hostRun : Nat → State → State × Nat × RunEnd
  | 0, s => (s, 0, if s.halted then .halted else .ceiling)
  | n + 1, s =>
    if s.halted then (s, 0, .halted)
    else
      match hostStep s with
      | (t, true) =>
        let r := hostRun n t
        (r.1, r.2.1 + 1, r.2.2)
      | (t, false) => (t, 0, if t.halted then .halted else .failed)

/-- One tick of a slow run: `halted` is checked before and after the step; true tells the host to cancel the trigger
(42_step_engine.md R176, R182). -/
def hostTick (s : State) : State × Bool :=
  if s.halted then (s, true)
  else
    let r := hostStep s
    (r.1, r.1.halted || !r.2)

/-- The stop request: `halted <- 1` and nothing else (42_step_engine.md R177). -/
def hostStop (s : State) : State := s.enterHalt

/-- `getMemory(address)`: the address is reduced modulo 65536 (42_step_engine.md R179). -/
def getMemory (s : State) (address : Int) : Byte := s.load8 (narrow16 address)

/-- `setMemory(address, byte)`: the address is reduced modulo 65536, the value modulo 256 (42_step_engine.md R180). -/
def setMemory (s : State) (address value : Int) : State := s.store8 (narrow16 address) (narrow8 value)

/-- What the snapshot accessors return, and what the Control Surface learns (42_step_engine.md R181, 10_state.md R40). -/
structure Snapshot where
  a : Byte
  b : Byte
  c : Byte
  d : Byte
  e : Byte
  h : Byte
  l : Byte
  pc : Word
  sp : Word
  flags : Flags
  tStates : Nat
  halted : Bool
  prog : List Record
  deriving DecidableEq, Repr

/-- The snapshot of a state (42_step_engine.md R181). -/
def snapshot (s : State) : Snapshot :=
  ⟨s.a, s.b, s.c, s.d, s.e, s.h, s.l, s.pc, s.sp, s.flags, s.tStates, s.halted, s.prog⟩

/-- The lines a step logs to the host: one for an executed IN or OUT, any wording (47_stack_control.md R319, R320; assumption
log 17). -/
def stepLog (s : State) : List Text :=
  match fetch s with
  | .run (.inPort port) => [Config.inLogLine port]
  | .run (.outPort port) => [Config.outLogLine port s.a]
  | _ => []

/-- A host operation (00_scope.md R3). -/
inductive HostOp where
  | reset
  | assemble (text : Text)
  | step
  | run (ceiling : Nat)
  | tick
  | stop
  | getMemory (address : Int)
  | setMemory (address value : Int)
  | snapshot

/-- What a host operation returns to the host. -/
inductive HostResult where
  | nothing
  | report (r : Report)
  | stepped (ok : Bool)
  | ran (steps : Nat) (fin : RunEnd)
  | cancel (yes : Bool)
  | byte (v : Byte)
  | snapshot (v : Snapshot)

/-- One host operation, atomic and deterministic (00_scope.md R2, 42_step_engine.md R182, R184). Only `assemble` can be
refused, on a text whose image is too large. -/
def hostApply (op : HostOp) (s : State) : Host.Outcome (State × HostResult) Fault Refusal :=
  match op with
  | .reset => .next (hostReset s, .nothing)
  | .assemble text =>
    match assemble text s with
    | .next (t, r) => .next (t, .report r)
    | .fault f => .fault f
    | .refused r => .refused r
  | .step => .next ((hostStep s).1, .stepped (hostStep s).2)
  | .run ceiling => .next ((hostRun ceiling s).1, .ran (hostRun ceiling s).2.1 (hostRun ceiling s).2.2)
  | .tick => .next ((hostTick s).1, .cancel (hostTick s).2)
  | .stop => .next (hostStop s, .nothing)
  | .getMemory address => .next (s, .byte (getMemory s address))
  | .setMemory address value => .next (setMemory s address value, .nothing)
  | .snapshot => .next (s, .snapshot (snapshot s))

end Sys2Proof.Machine
end

