-- ==== Sys2Proof/WellFormed.lean ====
section
/-! DEFINITION. What a well-formed instruction, setting of P4, record and program table are (30_encoding.md R70 to R88,
10_state.md R36, R37). Operand widths are in the types of `Instr`, so every term of `Instr` is well formed; the structured
view admits one term that is no instruction. -/

namespace Sys2Proof

/-- `MOV M,M` is not an instruction (30_encoding.md R88). -/
def Form.wf : Form → Bool
  | .mov d s => !(decide (d = .mem) && decide (s = .mem))
  | _ => true

/-- An instruction is well formed when its form is. -/
def Instr.wf (i : Instr) : Bool := i.form.wf

/-- A setting of P4 is legal when no two signatures have one byte; HLT keeps 0x76 under every setting (30_encoding.md R85,
93_implementation_defined.md U1). -/
def Config.wf (c : Config) : Bool :=
  decide (Machine.opcodeTable.map fun k => Machine.opcodeByte c k.instr).Nodup

/-- A record the assembler could have made: its texts look up to the key of its instruction, its opcode byte is that
instruction's, and its line number counts from 1 (40_assembler.md R128, 10_state.md R37). -/
def Record.wf (c : Config) (r : Record) : Bool :=
  (match Machine.lookup r.mnemonic r.operands with
    | some k => decide (k.instr.withOperand r.val = r.instr)
    | none => false)
  && decide (r.opcode = Machine.opcodeByte c r.instr)
  && decide (1 ≤ r.sourceLine)

/-- Records that start at address `cur` and at a line after `line`, each beginning where the one before it ends, and ending
at or below 0x10000 (10_state.md R36, 40_assembler.md R134). -/
def progWfFrom (c : Config) (cur line : Nat) : List Record → Bool
  | [] => decide (cur ≤ 0x10000)
  | r :: rest =>
    r.wf c && decide (r.address.toNat = cur) && decide (line < r.sourceLine)
      && progWfFrom c (cur + r.len) r.sourceLine rest

/-- The program table's invariant: the first record is at 0x8000 (10_state.md R36). -/
def progWf (c : Config) (prog : List Record) : Bool := progWfFrom c 0x8000 0 prog

end Sys2Proof
end

