-- ==== Sys2Proof/Safety.lean ====
section
/-! DEFINITION. The invariant of the machine's states and what counts as a safe run. -/

namespace Sys2Proof.Machine

/-- No name is listed twice. -/
def labelsWf : LabelTable → Bool
  | [] => true
  | (n, _) :: rest => (labelAddress rest n).isNone && labelsWf rest

/-- The invariant: memory has its canonical form, the program table is as the assembler makes it, and the label table is a
map. -/
def State.wf (s : State) : Bool := s.mem.wf && progWf s.cfg s.prog && labelsWf s.labels

/-- A step that is no failure. -/
def stepSafe (s : State) : Bool :=
  match step s with
  | .next _ => true
  | .fault _ => false
  | .refused _ => false

/-- `n` steps in a row of which none is a failure. -/
def safeFor : Nat → State → Bool
  | 0, _ => true
  | n + 1, s =>
    match step s with
    | .next t => safeFor n t
    | .fault _ => false
    | .refused _ => false

end Sys2Proof.Machine
end

