-- ==== Sys2Proof/Certificates/Slice0/Obligations.lean ====
section
/-! DEFINITION. The statements for the provers, and the small definitions they are written with. A result statement says the
whole next state, so everything that it does not name is unchanged. The definitions of `Sys2Proof.Claims` are written from
the rules again, not from the model's meanings. -/

namespace Sys2Proof.Claims

open Sys2Proof.Machine

/-! ### Vocabulary -/

/-- `t` after the commit of instruction `i`: PC is `pc` and the T-state charge is added (42_step_engine.md R169, R170). -/
def committed (i : Instr) (taken : Bool) (pc : Word) (t : State) : State :=
  { t with
    pc := pc
    tStates := addTStates t.cfg.tstateWidth t.tStates (cost t.cfg.tstate i.form taken) }

/-- Instructions executed one after the other, each at the state the one before it leaves. -/
def execAll : List Instr → State → Host.Outcome State Fault Refusal
  | [], s => .next s
  | i :: rest, s =>
    match exec i s with
    | .next t => execAll rest t
    | .fault f => .fault f
    | .refused q => .refused q

/-- The number of one bits is even (41_alu_flags.md R141). -/
def evenOnes (v : Byte) : Bool := ((List.range 8).filter fun k => v.getLsbD k).length % 2 == 0

/-- S, Z and P of a result, with the AC and CY given (41_alu_flags.md R142). -/
def resultFlags (res : Byte) (ac cy : Bool) : Flags where
  s := decide (128 ≤ res.toNat)
  z := decide (res.toNat = 0)
  ac := ac
  p := evenOnes res
  cy := cy

/-- `AC_SUB` of `x - y - bin` under each setting of parameter P8 (41_alu_flags.md R146). -/
def borrowAC (setting : AcSub) (x y bin : Nat) : Bool :=
  match setting with
  | .twosComplement => decide (y % 16 + bin ≤ x % 16)
  | .cleared => false
  | .borrow => decide (x % 16 < y % 16 + bin)

/-- The table of the eight conditions (46_branch.md R270). -/
def conditionTrue (c : Cond) (f : Flags) : Prop :=
  match c with
  | .NZ => f.z = false
  | .Z => f.z = true
  | .NC => f.cy = false
  | .C => f.cy = true
  | .PO => f.p = false
  | .PE => f.p = true
  | .P => f.s = false
  | .M => f.s = true

/-- The state with a word pushed: high byte at SP-1, low byte at SP-2, SP reduced by 2 (20_memory.md R57). -/
def pushed (s : State) (w : Word) : State :=
  { s with
    mem := (s.mem.write (s.sp - 1) (BitVec.ofNat 8 (w.toNat / 256))).write (s.sp - 2) (BitVec.ofNat 8 (w.toNat % 256))
    sp := s.sp - 2 }

/-- The word at the top of the stack: low byte at SP, high byte at SP+1 (20_memory.md R57). -/
def topWord (s : State) : Word := BitVec.ofNat 16 ((s.mem.read (s.sp + 1)).toNat * 256 + (s.mem.read s.sp).toNat)

/-- `taken` as 48_timing.md R333 lists it, from the state before the step. -/
def transferTaken (f : Form) (s : State) : Bool :=
  match f with
  | .jmp _ | .call _ | .ret | .pchl | .rst _ => true
  | .jcc c _ | .ccc c _ | .rcc c => condHolds s.flags c
  | .mov _ _ | .mvi _ _ | .lxi _ _ | .lda _ | .sta _ | .lhld _ | .shld _ | .ldax _ | .stax _ | .xchg | .alu _ _ | .alui _ _
  | .inr _ | .dcr _ | .inx _ | .dcx _ | .dad _ | .daa | .rlc | .rrc | .ral | .rar | .cma | .cmc | .stc | .push _ | .pop _
  | .xthl | .sphl | .nop | .ei | .di | .rim | .sim | .inPort _ | .outPort _ | .hlt => false

/-- The address of the instruction that follows, by form (42_step_engine.md R167, R168; 46_branch.md; 47_stack_control.md
R321). -/
def nextAddress (f : Form) (s : State) : Word :=
  match f with
  | .jmp a | .call a => a
  | .jcc c a | .ccc c a => if condHolds s.flags c then a else s.pc + 3
  | .ret => topWord s
  | .rcc c => if condHolds s.flags c then topWord s else s.pc + 1
  | .pchl => s.pair .HL
  | .rst n => BitVec.ofNat 16 (8 * n.val)
  | .hlt => s.pc
  | .mvi _ _ | .alui _ _ | .inPort _ | .outPort _ => s.pc + 2
  | .lxi _ _ | .lda _ | .sta _ | .lhld _ | .shld _ => s.pc + 3
  | .mov _ _ | .ldax _ | .stax _ | .xchg | .alu _ _ | .inr _ | .dcr _ | .inx _ | .dcx _ | .dad _ | .daa | .rlc | .rrc | .ral
  | .rar | .cma | .cmc | .stc | .push _ | .pop _ | .xthl | .sphl | .nop | .ei | .di | .rim | .sim => s.pc + 1

/-- The register an operand names, if it names one. -/
def operandRegister : Opnd → List Reg
  | .reg r => [r]
  | .mem => []

/-- The two registers of a pair (10_state.md R23). -/
def pairRegisters : Pair → List Reg
  | .BC => [.B, .C]
  | .DE => [.D, .E]
  | .HL => [.H, .L]

/-- The registers of an rp operand. -/
def rpRegisters : Rp → List Reg
  | .pair p => pairRegisters p
  | .sp => []

/-- The registers of an rq operand. -/
def rqRegisters : Rq → List Reg
  | .pair p => pairRegisters p
  | .psw => [.A]

/-- The registers an instruction may write, by form (10_state.md R22). -/
def destinations : Form → List Reg
  | .mov d _ | .mvi d _ | .inr d | .dcr d => operandRegister d
  | .lxi p _ | .inx p | .dcx p => rpRegisters p
  | .pop q => rqRegisters q
  | .lda _ | .ldax _ | .daa | .rlc | .rrc | .ral | .rar | .cma => [.A]
  | .alu op _ | .alui op _ => if op = .cmp then [] else [.A]
  | .lhld _ | .dad _ | .xthl => [.H, .L]
  | .xchg => [.D, .E, .H, .L]
  | .sta _ | .shld _ | .stax _ | .cmc | .stc | .jmp _ | .jcc _ _ | .call _ | .ccc _ _ | .ret | .rcc _ | .pchl | .rst _
  | .push _ | .sphl | .nop | .ei | .di | .rim | .sim | .inPort _ | .outPort _ | .hlt => []

/-- Whether an instruction may write SP, by form (10_state.md R26). -/
def mayWriteSP : Form → Bool
  | .lxi p _ | .inx p | .dcx p => decide (p = .sp)
  | .sphl | .push _ | .pop _ | .call _ | .ccc _ _ | .ret | .rcc _ | .rst _ => true
  | .mov _ _ | .mvi _ _ | .lda _ | .sta _ | .lhld _ | .shld _ | .ldax _ | .stax _ | .xchg | .alu _ _ | .alui _ _
  | .inr _ | .dcr _ | .dad _ | .daa | .rlc | .rrc | .ral | .rar | .cma | .cmc | .stc | .jmp _ | .jcc _ _ | .pchl
  | .xthl | .nop | .ei | .di | .rim | .sim | .inPort _ | .outPort _ | .hlt => false

/-- Which flags an instruction writes (10_state.md R29). -/
inductive FlagsWritten where
  | all
  | allButCarry
  | carryOnly
  | none
  deriving DecidableEq, Repr

/-- The index of the flags written, by form (10_state.md R29). -/
def flagsWritten : Form → FlagsWritten
  | .alu _ _ | .alui _ _ | .daa => .all
  | .pop q => if q = .psw then .all else .none
  | .inr _ | .dcr _ => .allButCarry
  | .dad _ | .rlc | .rrc | .ral | .rar | .cmc | .stc => .carryOnly
  | .mov _ _ | .mvi _ _ | .lxi _ _ | .lda _ | .sta _ | .lhld _ | .shld _ | .ldax _ | .stax _ | .xchg | .inx _ | .dcx _ | .cma
  | .jmp _ | .jcc _ _ | .call _ | .ccc _ _ | .ret | .rcc _ | .pchl | .rst _ | .push _ | .xthl | .sphl | .nop | .ei | .di
  | .rim | .sim | .inPort _ | .outPort _ | .hlt => .none

/-- The address a write of an operand stores to, if it stores. -/
def operandAddress (o : Opnd) (s : State) : List Word :=
  match o with
  | .reg _ => []
  | .mem => [s.pair .HL]

/-- The addresses an instruction stores a byte to, computed from the state before it (20_memory.md R53). -/
def storedAddresses (f : Form) (s : State) : List Word :=
  match f with
  | .mov d _ | .mvi d _ | .inr d | .dcr d => operandAddress d s
  | .sta a => [a]
  | .shld a => [a, a + 1]
  | .stax p => [s.pair (match p with | .BC => .BC | .DE => .DE)]
  | .push _ | .call _ | .rst _ => [s.sp - 1, s.sp - 2]
  | .ccc c _ => if condHolds s.flags c then [s.sp - 1, s.sp - 2] else []
  | .xthl => [s.sp, s.sp + 1]
  | .lxi _ _ | .lda _ | .lhld _ | .ldax _ | .xchg | .alu _ _ | .alui _ _ | .inx _ | .dcx _ | .dad _ | .daa | .rlc | .rrc
  | .ral | .rar | .cma | .cmc | .stc | .jmp _ | .jcc _ _ | .ret | .rcc _ | .pchl | .pop _ | .sphl | .nop | .ei | .di | .rim
  | .sim | .inPort _ | .outPort _ | .hlt => []

/-- One number for a register operand, another for M. -/
def registerOrMemory (o : Opnd) (register memory : Nat) : Nat :=
  match o with
  | .reg _ => register
  | .mem => memory

/-- The default T-states of a form, as 48_timing.md R334 tabulates them. -/
def defaultTStates (f : Form) (taken : Bool) : Nat :=
  match f with
  | .mov d r => if d = .mem ∨ r = .mem then 7 else 4
  | .mvi d _ => registerOrMemory d 7 10
  | .alu _ r => registerOrMemory r 4 7
  | .inr d | .dcr d => registerOrMemory d 4 10
  | .jcc _ _ => if taken then 10 else 7
  | .ccc _ _ => if taken then 18 else 9
  | .rcc _ => if taken then 12 else 6
  | .call _ => 18
  | .lhld _ | .shld _ | .xthl => 16
  | .lda _ | .sta _ => 13
  | .rst _ | .push _ => 12
  | .lxi _ _ | .dad _ | .jmp _ | .ret | .pop _ | .inPort _ | .outPort _ => 10
  | .ldax _ | .stax _ | .alui _ _ => 7
  | .inx _ | .dcx _ | .pchl | .sphl => 6
  | .hlt => 5
  | .xchg | .daa | .rlc | .rrc | .ral | .rar | .cma | .cmc | .stc | .ei | .di | .rim | .sim | .nop => 4

/-- Two states that differ at most in the T-state counter, the cost table and the counter's width. -/
def sameButTiming (s t : State) : Prop :=
  { s with tStates := t.tStates, cfg := { s.cfg with tstate := t.cfg.tstate, tstateWidth := t.cfg.tstateWidth } } = t

/-- A packed-BCD byte: both nibbles are decimal digits. -/
def isBcd (v : Byte) : Prop := v.toNat / 16 ≤ 9 ∧ v.toNat % 16 ≤ 9

/-- The number a packed-BCD byte stands for. -/
def bcdValue (v : Byte) : Nat := v.toNat / 16 * 10 + v.toNat % 16

/-- No record of the program table is at PC. -/
def noRecordAtPC (s : State) : Prop := ∀ r ∈ s.prog, r.address ≠ s.pc

/-- The bytes of a record's instruction that follow its opcode byte stand in a memory as `assemble` wrote them. -/
def operandBytesIntact (m : Memory) (r : Record) : Prop :=
  ∀ k b, (encode r.instr)[k + 1]? = some b → m.read (r.address + 1 + BitVec.ofNat 16 k) = b

/-- A character text from a string. -/
def text (t : String) : Text := t.toList

end Sys2Proof.Claims

open Sys2Proof Sys2Proof.Machine Sys2Proof.Claims

/-! ### Encoding -/

/-- 30_encoding.md R70, R73, R76 to R84: the decoder, written from the map of R86, reads back what the encoder, written from
the bit patterns and byte formulas of R71 and R76 to R84, wrote, whatever follows. Both are of P4's default table (log 2). -/
def Obligations.DecodeOfEncodeIsTheInstruction : Prop :=
  ∀ (i : Instr) (rest : List Byte), i.wf = true → decode (encode i ++ rest) = .ok (i, rest)

/-- 30_encoding.md R85, R89: no two byte sequences decode to one instruction, and no byte is dropped: what the decoder
accepts is exactly an encoding followed by the bytes it leaves. Both are of P4's default table (log 2). -/
def Obligations.DecodeAcceptsOnlyEncodings : Prop :=
  ∀ (bytes rest : List Byte) (i : Instr), decode bytes = .ok (i, rest) → bytes = encode i ++ rest

/-- 30_encoding.md R87, its first sentence, for the decoder: the ten bytes, and no others, are the first byte of no
instruction. -/
def Obligations.TenBytesAreNoInstruction : Prop :=
  ∀ (b : Byte) (rest : List Byte), decode (b :: rest) = .error (.undefinedOpcode b) ↔
    b ∈ ([0x08, 0x10, 0x18, 0x28, 0x38, 0xCB, 0xD9, 0xDD, 0xED, 0xFD] : List Byte)

/-- 30_encoding.md R85: 246 keys, 246 distinct texts, one for each instruction, 246 distinct bytes in the default table; and
under every legal setting of P4 (93_implementation_defined.md U1) the byte determines mnemonic and operands, and 0x76 is HLT's
alone. That a setting is legal is `Config.wf` (log 2). -/
def Obligations.OpcodeTableIsABijection : Prop :=
  opcodeTable.length = 246 ∧ (opcodeTable.map OpcodeKey.text).Nodup ∧ (opcodeTable.map OpcodeKey.opcode).Nodup
    ∧ (∀ i : Instr, ∃ k ∈ opcodeTable, k.instr = i.withOperand 0 ∧ (encode i).head? = some k.opcode)
    ∧ ∀ c : Config, c.wf = true →
        (∀ i j : Instr, opcodeByte c i = opcodeByte c j → i.withOperand 0 = j.withOperand 0)
        ∧ (∀ i : Instr, (encodeWith c i).head? = some 0x76 ↔ i = .hlt)
        ∧ (∀ i : Instr, (encodeWith c i).tail = (encode i).tail)

/-- Words written out from the bit patterns of 30_encoding.md R71 and the byte formulas of R76 to R84. -/
def Obligations.SampleWordsDecode : Prop :=
  decodeTableWord 8 0b01111000 = some .movAB
    ∧ decodeTableWord 16 0x0536 = some (.mviM 0x05)
    ∧ decodeTableWord 24 0x900021 = some (.lxiH 0x9000)
    ∧ decodeTableWord 8 0b10010110 = some .subM
    ∧ decodeTableWord 16 0x03C6 = some (.adi 0x03)
    ∧ decodeTableWord 8 0b00001100 = some .inrC
    ∧ decodeTableWord 8 0b10100111 = some .anaA
    ∧ decodeTableWord 24 0x8002C2 = some (.jnz 0x8002)
    ∧ decodeTableWord 8 0b11101111 = some .rst5
    ∧ decodeTableWord 8 0b11110101 = some .pushPSW
    ∧ decodeTableWord 16 0x01DB = some (.inPort 0x01)
    ∧ decodeTableWord 8 0x76 = some .hlt

/-! ### Memory, registers and reset -/

/-- 20_memory.md R55, with the second address modulo 65536: the laws of one byte of memory make these the exact bytes. -/
def Obligations.WordsAreLittleEndian : Prop :=
  ∀ (s : State) (a v b : Word),
    (s.load16 a).toNat = (s.mem.read a).toNat + 256 * (s.mem.read (a + 1)).toNat
    ∧ (s.store16 a v).mem.read b
      = (if b = a + 1 then BitVec.ofNat 8 (v.toNat / 256) else if b = a then BitVec.ofNat 8 (v.toNat % 256) else s.mem.read b)

/-- 42_step_engine.md R179, R180. The reductions modulo 65536 and 256 of arguments out of range are the spec's decision D21
("The address is reduced modulo 65536"). -/
def Obligations.HostReadsAndWritesMemory : Prop :=
  ∀ (s : State) (address value : Int) (b : Word),
    getMemory s address = s.mem.read (BitVec.ofNat 16 (address % 65536).toNat)
    ∧ (setMemory s address value).mem.read b
      = (if b = BitVec.ofNat 16 (address % 65536).toNat then BitVec.ofNat 8 (value % 256).toNat else s.mem.read b)
    ∧ setMemory s address value = { s with mem := (setMemory s address value).mem }

/-- 10_state.md R23: each pair is a view of its two registers, both ways, and of no other register. -/
def Obligations.PairsAreViewsOfTwoRegisters : Prop :=
  ∀ (s : State) (v : Word),
    (s.pair .BC).toNat = s.b.toNat * 256 + s.c.toNat
    ∧ (s.pair .DE).toNat = s.d.toNat * 256 + s.e.toNat
    ∧ (s.pair .HL).toNat = s.h.toNat * 256 + s.l.toNat
    ∧ s.setPair .BC v = { s with b := BitVec.ofNat 8 (v.toNat / 256), c := BitVec.ofNat 8 (v.toNat % 256) }
    ∧ s.setPair .DE v = { s with d := BitVec.ofNat 8 (v.toNat / 256), e := BitVec.ofNat 8 (v.toNat % 256) }
    ∧ s.setPair .HL v = { s with h := BitVec.ofNat 8 (v.toNat / 256), l := BitVec.ofNat 8 (v.toNat % 256) }
    ∧ (∀ p, (s.setPair p v).pair p = v)

/-- 10_state.md R28: the packed form `S Z 0 AC 0 P 1 CY`, bit by bit; PUSH PSW builds the byte, POP PSW takes it apart. That
the byte is stored at SP-2 and read at SP is 20_memory.md R57, 47_stack_control.md R311 and R313; that these addresses wrap is
the spec's decision D26. -/
def Obligations.FlagByteLayout : Prop :=
  (∀ f : Flags,
    (flagByte f).toNat = f.s.toNat * 128 + f.z.toNat * 64 + f.ac.toNat * 16 + f.p.toNat * 4 + 2 + f.cy.toNat
    ∧ (flagByte f).getLsbD 1 = true ∧ (flagByte f).getLsbD 3 = false ∧ (flagByte f).getLsbD 5 = false
    ∧ unpackFlags (flagByte f) = f)
  ∧ ∀ s : State,
    (∃ t, exec .pushPSW s = .next t ∧ t.mem.read (s.sp - 2) = flagByte s.flags)
    ∧ ∃ t, exec .popPSW s = .next t ∧ t.flags = unpackFlags (s.mem.read s.sp)

/-- 42_step_engine.md R178: what `reset` leaves, whatever the state before; no record, every byte 0, and a step fails. -/
def Obligations.ResetReinitialisesEverything : Prop :=
  ∀ s : State,
    (∀ r, (hostReset s).reg r = 0) ∧ (hostReset s).pc = 0x0000 ∧ (hostReset s).sp = 0xFFFF
    ∧ (hostReset s).flags = ⟨false, false, false, false, false⟩ ∧ (∀ a, (hostReset s).mem.read a = 0)
    ∧ (hostReset s).prog = [] ∧ (hostReset s).labels = [] ∧ (hostReset s).halted = false ∧ (hostReset s).tStates = 0
    ∧ step (hostReset s) = .fault .stepFailure
    ∧ (∀ t : State, t.cfg = s.cfg → hostReset t = hostReset s)

/-! ### Invariants -/

/-- The model's invariant holds of the state after reset. -/
def Obligations.ResetMeetsTheInvariant : Prop := State.reset.wf = true ∧ ∀ s : State, (hostReset s).wf = true

/-- Every step keeps the model's invariant: memory canonical (20_memory.md R50), the program table as the assembler makes it
(10_state.md R36), the label table a map (R38). -/
def Obligations.StepKeepsTheInvariant : Prop := ∀ s t : State, s.wf = true → step s = .next t → t.wf = true

/-- `assemble` establishes the invariant from any state with canonical memory, for every source text and every reading of
numerals (parameter P9): records run contiguously from 0x8000 and end at or below 0x10000 (10_state.md R36, 40_assembler.md
R134). The refusal of larger images is the spec's decision D17 (log 16). -/
def Obligations.AssembleEstablishesTheInvariant : Prop :=
  ∀ (num : Numerals) (txt : Text) (s t : State) (rep : Report),
    s.mem.wf = true → assembleWith num txt s = .next (t, rep) → t.wf = true

/-- Every host operation keeps the invariant. -/
def Obligations.HostOperationsKeepTheInvariant : Prop :=
  ∀ (op : HostOp) (s t : State) (res : HostResult), s.wf = true → hostApply op s = .next (t, res) → t.wf = true

/-! ### The step -/

/-- 42_step_engine.md R164 to R171: when a record is at PC, and the default byte of its signature with the record's operand
value (P7 = `record`), or with the bytes after PC (P7 = `memory`), decodes to `i`, a step is exactly `exec i` and returns
true. In a state that meets the invariant the record's own opcode byte is its signature's under P4, so with P4's default table
the record's byte decodes to `i` (log 2, log 13). -/
def Obligations.StepRunsTheRecordAtPC : Prop :=
  ∀ (s : State) (r : Record) (i : Instr) (b2 b3 : Byte) (rest : List Byte),
    s.halted = false → s.prog.find? (fun q => q.address == s.pc) = some r →
    (s.cfg.operandSource = .record → b2 = BitVec.ofNat 8 (r.val.toNat % 256) ∧ b3 = BitVec.ofNat 8 (r.val.toNat / 256)) →
    (s.cfg.operandSource = .memory → b2 = s.mem.read (s.pc + 1) ∧ b3 = s.mem.read (s.pc + 2)) →
    decode [r.instr.form.opcode, b2, b3] = .ok (i, rest) →
    (step s = exec i s ∧ stepReturns s = true)
    ∧ (s.wf = true → r.opcode = opcodeByte s.cfg r.instr
      ∧ (s.cfg.opcode = [] → decode [r.opcode, b2, b3] = .ok (i, rest)))

/-- 42_step_engine.md R163, R164: a halted engine refuses the step and changes nothing; without a record at PC a step halts on
a 0x76 byte and fails otherwise; all three return false. That nothing at all changes is the spec's decision D30, the unchanged
PC and uncharged T-states of the raw 0x76 case D3. -/
def Obligations.StepsThatExecuteNothing : Prop :=
  ∀ s : State,
    (s.halted = true → step s = .next s ∧ hostStep s = (s, false))
    ∧ (s.halted = false → noRecordAtPC s → s.mem.read s.pc = 0x76 →
        step s = .next { s with halted := true } ∧ hostStep s = ({ s with halted := true }, false))
    ∧ (s.halted = false → noRecordAtPC s → s.mem.read s.pc ≠ 0x76 → step s = .fault .stepFailure ∧ hostStep s = (s, false))

/-- 60_exceptions.md R350, R351: the step failure is the only fault, it belongs to the fetch, and no step is refused. -/
def Obligations.StepFailsOnlyAtTheFetch : Prop :=
  ∀ s : State,
    (∀ f, step s = .fault f ↔ f = .stepFailure ∧ s.halted = false ∧ noRecordAtPC s ∧ s.mem.read s.pc ≠ 0x76)
    ∧ (∀ q, step s ≠ .refused q)

/-- 42_step_engine.md R161: the three ways into `halted` (`run` and `tick` only repeat steps) and the two ways out. -/
def Obligations.HaltTransitions : Prop :=
  ∀ (op : HostOp) (s t : State) (res : HostResult), s.wf = true → hostApply op s = .next (t, res) →
    (s.halted = false → (∀ n, op ≠ .run n) → op ≠ .tick →
      (t.halted = true ↔ op = .stop ∨ (op = .step ∧ ((∃ r ∈ s.prog, r.address = s.pc ∧ r.instr = .hlt)
        ∨ (noRecordAtPC s ∧ s.mem.read s.pc = 0x76)))))
    ∧ (s.halted = true → (t.halted = false ↔ op = .reset ∨ ∃ txt, op = .assemble txt))

/-- 10_state.md R36, R38: only `assemble` and `reset` write the program table and the label table. That the configuration
never changes is the model's log 1. -/
def Obligations.OnlyAssembleAndResetWriteTheTables : Prop :=
  (∀ s t : State, step s = .next t → t.prog = s.prog ∧ t.labels = s.labels ∧ t.cfg = s.cfg)
  ∧ ∀ (op : HostOp) (s t : State) (res : HostResult), hostApply op s = .next (t, res) → op ≠ .reset →
      (∀ txt, op ≠ .assemble txt) → t.prog = s.prog ∧ t.labels = s.labels ∧ t.cfg = s.cfg

/-- 20_memory.md R64: under P7 = `record`, what executes at an address with a record does not depend on memory. The setting
is the spec's decision D2. Under every setting it does not depend on the opcode bytes of P4 and of the records either
(42_step_engine.md R165, 93_implementation_defined.md U1). -/
def Obligations.StoresNeverChangeWhatExecutes : Prop :=
  (∀ (s : State) (m : Memory), s.cfg.operandSource = .record → (∃ r ∈ s.prog, r.address = s.pc) →
    fetch { s with mem := m } = fetch s)
  ∧ ∀ (s : State) (changes : List (Byte × Byte)) (byte : Record → Byte),
      fetch { s with
        cfg := { s.cfg with opcode := changes }
        prog := s.prog.map fun r => { r with opcode := byte r } } = fetch s

/-- 48_timing.md R331, R333: a successful step adds exactly one cost, with `taken` as R333 lists it; every other step, and
`getMemory`, `setMemory`, the snapshot, `assemble` and stop, adds nothing; with the unbounded counter (the default of P12,
decision D18) only `reset` lowers it. The first clause holds for every width of the counter: that a counter of `w` bits is
reduced modulo `2 ^ w` is the model's log 8, not the spec's. -/
def Obligations.EachStepChargesOneCost : Prop :=
  (∀ (s t : State) (i : Instr), step s = .next t → fetch s = .run i →
      t.tStates = addTStates s.cfg.tstateWidth s.tStates (cost s.cfg.tstate i.form (transferTaken i.form s)))
  ∧ (∀ s : State, stepReturns s = true ↔ ∃ i, fetch s = .run i)
  ∧ (∀ s : State, stepReturns s = false → (hostStep s).1.tStates = s.tStates)
  ∧ (∀ (s t : State) (res : HostResult) (txt : Text) (x v : Int), ∀ op ∈ [HostOp.getMemory x, .setMemory x v, .snapshot,
      .assemble txt, .stop], hostApply op s = .next (t, res) → t.tStates = s.tStates)
  ∧ (∀ (op : HostOp) (s t : State) (res : HostResult), s.cfg.tstateWidth = none → hostApply op s = .next (t, res) →
      op ≠ .reset → s.tStates ≤ t.tStates)

/-- 48_timing.md R334: the default cost of every form, and the numbers the source states under every table. The "gk" numbers
are the spec's general knowledge (log 3). -/
def Obligations.DefaultCostTable : Prop :=
  (∀ (i : Instr) (taken : Bool), cost defaultCosts i.form taken = defaultTStates i.form taken)
  ∧ ∀ (c : CostTable) (a : Word) (taken : Bool), cost c (.call a) taken = 18 ∧ cost c .ret taken = 10
      ∧ cost c (.jcc .Z a) true = 10 ∧ cost c (.jcc .Z a) false = 7

/-- 48_timing.md R336: timing has no effect on function. Two states that differ only in timing step alike and stay so. -/
def Obligations.TimingHasNoEffectOnFunction : Prop :=
  ∀ s s' : State, sameButTiming s s' →
    stepReturns s = stepReturns s' ∧
    match step s, step s' with
    | .next t, .next t' => sameButTiming t t'
    | .fault f, .fault f' => f = f'
    | .refused q, .refused q' => q = q'
    | _, _ => False

/-- 70_reset_and_hazards.md R392: no code stands below 0x8000; a step there halts on a 0x76 byte and fails otherwise. That the
halt on a raw 0x76 byte leaves PC, the T-states and all else unchanged is the spec's decision D3 (42_step_engine.md R164). -/
def Obligations.NoCodeBelowTheLoadAddress : Prop :=
  ∀ s : State, s.wf = true → s.halted = false → s.pc.toNat < 0x8000 →
    step s = if s.mem.read s.pc = 0x76 then .next { s with halted := true } else .fault .stepFailure

/-! ### Every instruction -/

/-- 42_step_engine.md R168 to R170: every instruction, at every state, with any operands, completes; PC, the T-state counter
and `halted` after it. HLT's charge is the spec's decision D4. -/
def Obligations.EveryInstructionCompletes : Prop :=
  ∀ (i : Instr) (s : State), ∃ t, exec i s = .next t
    ∧ t.pc = nextAddress i.form s
    ∧ t.tStates = addTStates s.cfg.tstateWidth s.tStates (cost s.cfg.tstate i.form (transferTaken i.form s))
    ∧ t.halted = (s.halted || decide (i.form = .hlt))

/-- 10_state.md R22, R26: an instruction writes no register but its destinations, and SP only where R26 lists it. -/
def Obligations.RegisterFrame : Prop :=
  ∀ (i : Instr) (s t : State), exec i s = .next t →
    (∀ r, r ∉ destinations i.form → t.reg r = s.reg r) ∧ (mayWriteSP i.form = false → t.sp = s.sp)

/-- 41_alu_flags.md R151 with the index 10_state.md R29: flags an instruction's rule does not name are unchanged. That RLC,
RRC, RAL, RAR, CMC and STC leave S, Z, AC and P is the spec's decision D8 (45_logical.md R256 to R259, R261, R262). -/
def Obligations.FlagFrame : Prop :=
  ∀ (i : Instr) (s t : State), exec i s = .next t →
    (flagsWritten i.form = .allButCarry → t.flags.cy = s.flags.cy)
    ∧ (flagsWritten i.form = .carryOnly → t.flags = { s.flags with cy := t.flags.cy })
    ∧ (flagsWritten i.form = .none → t.flags = s.flags)

/-- 20_memory.md R53: every byte of memory outside the addresses an instruction stores to reads as before. -/
def Obligations.MemoryFrame : Prop :=
  ∀ (i : Instr) (s t : State) (a : Word), exec i s = .next t → a ∉ storedAddresses i.form s → t.mem.read a = s.mem.read a

/-! ### Data transfer -/

/-- 43_data_transfer.md R200, R201, R202: MOV in its three forms. -/
def Obligations.MovCopies : Prop :=
  ∀ (i : Instr) (s : State) (d r : Reg),
    (i.form = .mov (.reg d) (.reg r) → encode i = [BitVec.ofNat 8 (0x40 + 8 * d.code + r.code)]
      ∧ exec i s = .next (committed i false (s.pc + 1) (s.setReg d (s.reg r))))
    ∧ (i.form = .mov (.reg d) .mem → encode i = [BitVec.ofNat 8 (0x46 + 8 * d.code)]
      ∧ exec i s = .next (committed i false (s.pc + 1) (s.setReg d (s.mem.read (s.pair .HL)))))
    ∧ (i.form = .mov .mem (.reg r) → encode i = [BitVec.ofNat 8 (0x70 + r.code)]
      ∧ exec i s = .next (committed i false (s.pc + 1) { s with mem := s.mem.write (s.pair .HL) (s.reg r) }))

/-- 43_data_transfer.md R203, R204, R205: MVI to a register and to M, LXI to a pair and to SP. -/
def Obligations.ImmediateLoads : Prop :=
  ∀ (i : Instr) (s : State) (d : Reg) (p : Pair) (d8 : Byte) (d16 : Word),
    (i.form = .mvi (.reg d) d8 → encode i = [BitVec.ofNat 8 (0x06 + 8 * d.code), d8]
      ∧ exec i s = .next (committed i false (s.pc + 2) (s.setReg d d8)))
    ∧ (i.form = .mvi .mem d8 → encode i = [0x36, d8]
      ∧ exec i s = .next (committed i false (s.pc + 2) { s with mem := s.mem.write (s.pair .HL) d8 }))
    ∧ (i.form = .lxi (.pair p) d16 →
      encode i = [BitVec.ofNat 8 (0x01 + 16 * p.code), d16.truncate 8, (d16 >>> 8).truncate 8]
      ∧ exec i s = .next (committed i false (s.pc + 3) (s.setPair p d16)))
    ∧ (i.form = .lxi .sp d16 → encode i = [0x31, d16.truncate 8, (d16 >>> 8).truncate 8]
      ∧ exec i s = .next (committed i false (s.pc + 3) { s with sp := d16 }))

/-- 43_data_transfer.md R206 to R209: LDA, STA, LHLD, SHLD. -/
def Obligations.DirectTransfers : Prop :=
  ∀ (s : State) (a16 : Word),
    (encode (.lda a16) = [0x3A, a16.truncate 8, (a16 >>> 8).truncate 8]
      ∧ exec (.lda a16) s = .next (committed (.lda a16) false (s.pc + 3) { s with a := s.mem.read a16 }))
    ∧ (encode (.sta a16) = [0x32, a16.truncate 8, (a16 >>> 8).truncate 8]
      ∧ exec (.sta a16) s = .next (committed (.sta a16) false (s.pc + 3) { s with mem := s.mem.write a16 s.a }))
    ∧ (encode (.lhld a16) = [0x2A, a16.truncate 8, (a16 >>> 8).truncate 8]
      ∧ exec (.lhld a16) s
        = .next (committed (.lhld a16) false (s.pc + 3) { s with l := s.mem.read a16, h := s.mem.read (a16 + 1) }))
    ∧ (encode (.shld a16) = [0x22, a16.truncate 8, (a16 >>> 8).truncate 8]
      ∧ exec (.shld a16) s
        = .next (committed (.shld a16) false (s.pc + 3) { s with mem := (s.mem.write a16 s.l).write (a16 + 1) s.h }))

/-- 43_data_transfer.md R210, R211, R212: LDAX, STAX, XCHG. -/
def Obligations.IndirectTransfersAndExchange : Prop :=
  ∀ s : State,
    (encode .ldaxB = [0x0A] ∧ encode .ldaxD = [0x1A] ∧ encode .staxB = [0x02] ∧ encode .staxD = [0x12]
      ∧ encode .xchg = [0xEB])
    ∧ exec .ldaxB s = .next (committed .ldaxB false (s.pc + 1) { s with a := s.mem.read (s.pair .BC) })
    ∧ exec .ldaxD s = .next (committed .ldaxD false (s.pc + 1) { s with a := s.mem.read (s.pair .DE) })
    ∧ exec .staxB s = .next (committed .staxB false (s.pc + 1) { s with mem := s.mem.write (s.pair .BC) s.a })
    ∧ exec .staxD s = .next (committed .staxD false (s.pc + 1) { s with mem := s.mem.write (s.pair .DE) s.a })
    ∧ exec .xchg s = .next (committed .xchg false (s.pc + 1) { s with h := s.d, d := s.h, l := s.e, e := s.l })

/-! ### Arithmetic -/

/-- 44_arithmetic.md R220, R221, R225, R226 with 41_alu_flags.md R143: ADD, ADC, ADI, ACI, with a register, M or an immediate
operand `y`. -/
def Obligations.AdditionsComputeSumAndFlags : Prop :=
  ∀ (i : Instr) (s : State) (o : Opnd) (y : Byte) (cin : Nat) (bytes : List Byte),
    (i.form = .alu .add o ∧ y = s.readOpnd o ∧ cin = 0 ∧ bytes = [BitVec.ofNat 8 (0x80 + o.code)]
      ∨ i.form = .alu .adc o ∧ y = s.readOpnd o ∧ cin = s.flags.cy.toNat ∧ bytes = [BitVec.ofNat 8 (0x88 + o.code)]
      ∨ i.form = .alui .add y ∧ cin = 0 ∧ bytes = [0xC6, y]
      ∨ i.form = .alui .adc y ∧ cin = s.flags.cy.toNat ∧ bytes = [0xCE, y]) →
    encode i = bytes
    ∧ exec i s = .next (committed i false (s.pc + BitVec.ofNat 16 bytes.length)
      { s with
        a := BitVec.ofNat 8 (s.a.toNat + y.toNat + cin)
        flags := resultFlags (BitVec.ofNat 8 (s.a.toNat + y.toNat + cin))
          (decide (15 < s.a.toNat % 16 + y.toNat % 16 + cin)) (decide (255 < s.a.toNat + y.toNat + cin)) })

/-- 44_arithmetic.md R222, R223, R224, R227, R228, R229 with 41_alu_flags.md R144: SUB, SBB, SUI, SBI; CMP and CPI, which leave
A; AC by the setting of P8, all three of them (R146). -/
def Obligations.SubtractionsComputeDifferenceAndFlags : Prop :=
  ∀ (i : Instr) (s : State) (o : Opnd) (y a : Byte) (bin : Nat) (bytes : List Byte),
    (i.form = .alu .sub o ∧ y = s.readOpnd o ∧ bin = 0 ∧ a = BitVec.ofNat 8 (256 + s.a.toNat - y.toNat)
        ∧ bytes = [BitVec.ofNat 8 (0x90 + o.code)]
      ∨ i.form = .alu .sbb o ∧ y = s.readOpnd o ∧ bin = s.flags.cy.toNat
        ∧ a = BitVec.ofNat 8 (256 + s.a.toNat - y.toNat - bin) ∧ bytes = [BitVec.ofNat 8 (0x98 + o.code)]
      ∨ i.form = .alu .cmp o ∧ y = s.readOpnd o ∧ bin = 0 ∧ a = s.a ∧ bytes = [BitVec.ofNat 8 (0xB8 + o.code)]
      ∨ i.form = .alui .sub y ∧ bin = 0 ∧ a = BitVec.ofNat 8 (256 + s.a.toNat - y.toNat) ∧ bytes = [0xD6, y]
      ∨ i.form = .alui .sbb y ∧ bin = s.flags.cy.toNat ∧ a = BitVec.ofNat 8 (256 + s.a.toNat - y.toNat - bin)
        ∧ bytes = [0xDE, y]
      ∨ i.form = .alui .cmp y ∧ bin = 0 ∧ a = s.a ∧ bytes = [0xFE, y]) →
    encode i = bytes
    ∧ exec i s = .next (committed i false (s.pc + BitVec.ofNat 16 bytes.length)
      { s with
        a := a
        flags := resultFlags (BitVec.ofNat 8 (256 + s.a.toNat - y.toNat - bin))
          (borrowAC s.cfg.acSub s.a.toNat y.toNat bin) (decide (s.a.toNat < y.toNat + bin)) })

/-- 44_arithmetic.md R230, R231 with 41_alu_flags.md R147: INR and DCR of a register and of M; CY unchanged, the AC of DCR by
the setting of P8. -/
def Obligations.IncrementsAndDecrementsKeepCarry : Prop :=
  ∀ (i : Instr) (s : State) (o : Opnd) (v r : Byte) (ac : Bool) (code : Nat), v = s.readOpnd o →
    (i.form = .inr o ∧ r = BitVec.ofNat 8 (v.toNat + 1) ∧ ac = decide (v.toNat % 16 = 15) ∧ code = 0x04
      ∨ i.form = .dcr o ∧ r = BitVec.ofNat 8 (v.toNat + 255) ∧ ac = borrowAC s.cfg.acSub v.toNat 1 0 ∧ code = 0x05) →
    encode i = [BitVec.ofNat 8 (code + 8 * o.code)]
    ∧ (∀ d, o = .reg d →
      exec i s = .next (committed i false (s.pc + 1) { s.setReg d r with flags := resultFlags r ac s.flags.cy }))
    ∧ (o = .mem →
      exec i s = .next (committed i false (s.pc + 1)
        { s with mem := s.mem.write (s.pair .HL) r, flags := resultFlags r ac s.flags.cy }))

/-- 44_arithmetic.md R232, R233: INX and DCX of a pair and of SP; no flag. -/
def Obligations.PairCountsWrapAndKeepFlags : Prop :=
  ∀ (i : Instr) (s : State) (p : Pair),
    (i.form = .inx (.pair p) → encode i = [BitVec.ofNat 8 (0x03 + 16 * p.code)]
      ∧ exec i s = .next (committed i false (s.pc + 1) (s.setPair p (s.pair p + 1))))
    ∧ (i.form = .inx .sp → encode i = [0x33] ∧ exec i s = .next (committed i false (s.pc + 1) { s with sp := s.sp + 1 }))
    ∧ (i.form = .dcx (.pair p) → encode i = [BitVec.ofNat 8 (0x0B + 16 * p.code)]
      ∧ exec i s = .next (committed i false (s.pc + 1) (s.setPair p (s.pair p - 1))))
    ∧ (i.form = .dcx .sp → encode i = [0x3B] ∧ exec i s = .next (committed i false (s.pc + 1) { s with sp := s.sp - 1 }))

/-- 44_arithmetic.md R234: DAD adds to HL and writes CY alone. That CY is cleared without overflow is the spec's decision
D8. -/
def Obligations.DadAddsToHL : Prop :=
  ∀ (i : Instr) (s : State) (p : Rp), i.form = .dad p →
    encode i = [BitVec.ofNat 8 (0x09 + 16 * p.code)]
    ∧ exec i s = .next (committed i false (s.pc + 1)
      { s.setPair .HL (s.pair .HL + s.rp p) with
        flags := { s.flags with cy := decide (65535 < (s.pair .HL).toNat + (s.rp p).toNat) } })

/-- 44_arithmetic.md R235: DAA's two corrections. The borderline case, and AC and CY after it, are the spec's decision D7
(log 18). -/
def Obligations.DaaCorrectsBothNibbles : Prop :=
  ∀ (s : State) (low high : Bool) (corr : Nat),
    low = (decide (9 < s.a.toNat % 16) || s.flags.ac) →
    high = (decide (9 < s.a.toNat / 16) || s.flags.cy || (decide (9 ≤ s.a.toNat / 16) && decide (9 < s.a.toNat % 16))) →
    corr = (if low then 6 else 0) + (if high then 96 else 0) →
    encode .daa = [0x27]
    ∧ exec .daa s = .next (committed .daa false (s.pc + 1)
      { s with
        a := BitVec.ofNat 8 (s.a.toNat + corr)
        flags := resultFlags (BitVec.ofNat 8 (s.a.toNat + corr)) (decide (15 < s.a.toNat % 16 + corr % 16)) high })

/-- 44_arithmetic.md R235, its purpose: after ADD, ADC, ADI or ACI of two packed-BCD bytes, DAA leaves the packed-BCD sum and
its decimal carry. Rests on decision D7 (log 18). -/
def Obligations.DaaGivesTheDecimalSum : Prop :=
  ∀ (i : Instr) (s : State) (o : Opnd) (y : Byte) (cin : Nat),
    (i.form = .alu .add o ∧ y = s.readOpnd o ∧ cin = 0 ∨ i.form = .alu .adc o ∧ y = s.readOpnd o ∧ cin = s.flags.cy.toNat
      ∨ i.form = .alui .add y ∧ cin = 0 ∨ i.form = .alui .adc y ∧ cin = s.flags.cy.toNat) →
    isBcd s.a → isBcd y →
    ∃ t, execAll [i, .daa] s = .next t ∧ isBcd t.a ∧ bcdValue t.a = (bcdValue s.a + bcdValue y + cin) % 100
      ∧ t.flags.cy = decide (100 ≤ bcdValue s.a + bcdValue y + cin)

/-! ### Logical -/

/-- 45_logical.md R250 to R255 with 41_alu_flags.md R148: ANA, XRA, ORA and ANI, XRI, ORI; CY and AC cleared. -/
def Obligations.BooleanOperationsClearCarries : Prop :=
  ∀ (i : Instr) (s : State) (op : AluOp) (o : Opnd) (y res : Byte) (bytes : List Byte),
    (i.form = .alu op o ∧ y = s.readOpnd o ∧ bytes = [BitVec.ofNat 8 (0x80 + 8 * op.code + o.code)]
      ∨ i.form = .alui op y ∧ bytes = [BitVec.ofNat 8 (0xC6 + 8 * op.code), y]) →
    (op = .ana ∧ res = s.a &&& y ∨ op = .xra ∧ res = s.a ^^^ y ∨ op = .ora ∧ res = s.a ||| y) →
    encode i = bytes
    ∧ exec i s = .next (committed i false (s.pc + BitVec.ofNat 16 bytes.length)
      { s with a := res, flags := resultFlags res false false })

/-- 45_logical.md R256 to R259: the four rotates write A and CY alone. That the other flags stay is the spec's decision D8. -/
def Obligations.RotatesWriteAAndCarry : Prop :=
  ∀ s : State,
    (encode .rlc = [0x07] ∧ encode .rrc = [0x0F] ∧ encode .ral = [0x17] ∧ encode .rar = [0x1F])
    ∧ exec .rlc s = .next (committed .rlc false (s.pc + 1)
        { s with a := s.a.rotateLeft 1, flags := { s.flags with cy := s.a.msb } })
    ∧ exec .rrc s = .next (committed .rrc false (s.pc + 1)
        { s with a := s.a.rotateRight 1, flags := { s.flags with cy := s.a.getLsbD 0 } })
    ∧ exec .ral s = .next (committed .ral false (s.pc + 1)
        { s with a := (s.a <<< 1) ||| BitVec.ofNat 8 s.flags.cy.toNat, flags := { s.flags with cy := s.a.msb } })
    ∧ exec .rar s = .next (committed .rar false (s.pc + 1)
        { s with a := (s.a >>> 1) ||| BitVec.ofNat 8 (128 * s.flags.cy.toNat), flags := { s.flags with cy := s.a.getLsbD 0 } })

/-- 45_logical.md R260, R261, R262: CMA complements A and writes no flag; CMC toggles and STC sets CY alone. That the other
flags stay under CMC and STC is the spec's decision D8. -/
def Obligations.ComplementAndCarryOperations : Prop :=
  ∀ s : State, (encode .cma = [0x2F] ∧ encode .cmc = [0x3F] ∧ encode .stc = [0x37])
    ∧ exec .cma s = .next (committed .cma false (s.pc + 1) { s with a := BitVec.ofNat 8 (255 - s.a.toNat) })
    ∧ exec .cmc s = .next (committed .cmc false (s.pc + 1) { s with flags := { s.flags with cy := !s.flags.cy } })
    ∧ exec .stc s = .next (committed .stc false (s.pc + 1) { s with flags := { s.flags with cy := true } })

/-! ### Branching -/

/-- 46_branch.md R270 to R279: JMP and the eight conditional jumps, taken and not taken. -/
def Obligations.JumpsGoToTheirTarget : Prop :=
  ∀ (i : Instr) (s : State) (c : Cond) (a16 : Word),
    (i.form = .jmp a16 → encode i = [0xC3, a16.truncate 8, (a16 >>> 8).truncate 8]
      ∧ exec i s = .next (committed i true a16 s))
    ∧ (i.form = .jcc c a16 → encode i = [BitVec.ofNat 8 (0xC2 + 8 * c.code), a16.truncate 8, (a16 >>> 8).truncate 8]
      ∧ (conditionTrue c s.flags → exec i s = .next (committed i true a16 s))
      ∧ (¬ conditionTrue c s.flags → exec i s = .next (committed i false (s.pc + 3) s)))

/-- 46_branch.md R280 to R288: CALL and the eight conditional calls push the fall-through address. The wrap of the stack
addresses is the spec's decision D26. -/
def Obligations.CallsPushTheFallThroughAddress : Prop :=
  ∀ (i : Instr) (s : State) (c : Cond) (a16 : Word),
    (i.form = .call a16 → encode i = [0xCD, a16.truncate 8, (a16 >>> 8).truncate 8]
      ∧ exec i s = .next (committed i true a16 (pushed s (s.pc + 3))))
    ∧ (i.form = .ccc c a16 → encode i = [BitVec.ofNat 8 (0xC4 + 8 * c.code), a16.truncate 8, (a16 >>> 8).truncate 8]
      ∧ (conditionTrue c s.flags → exec i s = .next (committed i true a16 (pushed s (s.pc + 3))))
      ∧ (¬ conditionTrue c s.flags → exec i s = .next (committed i false (s.pc + 3) s)))

/-- 46_branch.md R289 to R297: RET and the eight conditional returns. The wrap of the stack addresses is the spec's decision
D26. -/
def Obligations.ReturnsPopTheirTarget : Prop :=
  ∀ (i : Instr) (s : State) (c : Cond),
    (i.form = .ret → encode i = [0xC9]
      ∧ exec i s = .next (committed i true (topWord s) { s with sp := s.sp + 2 }))
    ∧ (i.form = .rcc c → encode i = [BitVec.ofNat 8 (0xC0 + 8 * c.code)]
      ∧ (conditionTrue c s.flags → exec i s = .next (committed i true (topWord s) { s with sp := s.sp + 2 }))
      ∧ (¬ conditionTrue c s.flags → exec i s = .next (committed i false (s.pc + 1) s)))

/-- 46_branch.md R298, 47_stack_control.md R315: PCHL and SPHL. -/
def Obligations.HLMovesToPCAndSP : Prop :=
  ∀ s : State, (encode .pchl = [0xE9] ∧ encode .sphl = [0xF9])
    ∧ exec .pchl s = .next (committed .pchl true (s.pair .HL) s)
    ∧ exec .sphl s = .next (committed .sphl false (s.pc + 1) { s with sp := s.pair .HL })

/-- 46_branch.md R299: RST n pushes the fall-through address and goes to 8n. The wrap of the stack addresses is the spec's
decision D26. -/
def Obligations.RestartsCallEightTimesN : Prop :=
  ∀ (i : Instr) (s : State) (n : Fin 8), i.form = .rst n →
    encode i = [BitVec.ofNat 8 (0xC7 + 8 * n.val)]
    ∧ exec i s = .next (committed i true (BitVec.ofNat 16 (8 * n.val)) (pushed s (s.pc + 1)))

/-! ### Stack and control -/

/-- 47_stack_control.md R310, R311: PUSH of a pair and of PSW. The wrap of the stack addresses is the spec's decision D26. -/
def Obligations.PushStoresTheWord : Prop :=
  ∀ (i : Instr) (s : State) (p : Pair),
    (i.form = .push (.pair p) → encode i = [BitVec.ofNat 8 (0xC5 + 16 * p.code)]
      ∧ exec i s = .next (committed i false (s.pc + 1) (pushed s (s.pair p))))
    ∧ (i.form = .push .psw → encode i = [0xF5]
      ∧ exec i s = .next (committed i false (s.pc + 1)
        (pushed s (BitVec.ofNat 16 (s.a.toNat * 256 + (s.flags.s.toNat * 128 + s.flags.z.toNat * 64 + s.flags.ac.toNat * 16
          + s.flags.p.toNat * 4 + 2 + s.flags.cy.toNat))))))

/-- 47_stack_control.md R312, R313: POP of a pair and of PSW. That bits 5, 3 and 1 are ignored is the spec's decision D34, the
wrap of the stack addresses D26. -/
def Obligations.PopLoadsTheWord : Prop :=
  ∀ (i : Instr) (s : State) (p : Pair),
    (i.form = .pop (.pair p) → encode i = [BitVec.ofNat 8 (0xC1 + 16 * p.code)]
      ∧ exec i s = .next (committed i false (s.pc + 1) ({ s with sp := s.sp + 2 }.setPair p (topWord s))))
    ∧ (i.form = .pop .psw → encode i = [0xF1]
      ∧ exec i s = .next (committed i false (s.pc + 1)
        { s with
          sp := s.sp + 2
          a := s.mem.read (s.sp + 1)
          flags := ⟨(s.mem.read s.sp).getLsbD 7, (s.mem.read s.sp).getLsbD 6, (s.mem.read s.sp).getLsbD 4,
            (s.mem.read s.sp).getLsbD 2, (s.mem.read s.sp).getLsbD 0⟩ }))

/-- 47_stack_control.md R312, R313, the corner cases, and 46_branch.md R280, R289: POP after PUSH moves the pushed word and
restores SP, POP PSW after PUSH PSW restores A and the flags, RET after CALL comes back behind the CALL. The wrap of the stack
addresses is decision D26. -/
def Obligations.StackRoundTrips : Prop :=
  (∀ (i j : Instr) (s : State) (p q : Pair), i.form = .push (.pair p) → j.form = .pop (.pair q) →
      ∃ t, execAll [i, j] s = .next t ∧ t.pair q = s.pair p ∧ t.sp = s.sp ∧ t.flags = s.flags
        ∧ (∀ p', p' ≠ q → t.pair p' = s.pair p'))
  ∧ (∀ s : State, ∃ t, execAll [.pushPSW, .popPSW] s = .next t ∧ t.flags = s.flags ∧ t.sp = s.sp
        ∧ (∀ r, t.reg r = s.reg r))
  ∧ (∀ (s : State) (a16 : Word), ∃ t, execAll [.call a16, .ret] s = .next t ∧ t.pc = s.pc + 3 ∧ t.sp = s.sp
        ∧ (∀ r, t.reg r = s.reg r) ∧ t.flags = s.flags)

/-- 47_stack_control.md R314: XTHL. That L goes with the byte at SP is the spec's decision D33. -/
def Obligations.XthlExchangesWithTheTop : Prop :=
  ∀ s : State, encode .xthl = [0xE3]
    ∧ exec .xthl s = .next (committed .xthl false (s.pc + 1)
      { s with
        l := s.mem.read s.sp
        h := s.mem.read (s.sp + 1)
        mem := (s.mem.write s.sp s.l).write (s.sp + 1) s.h })

/-- 47_stack_control.md R316 to R320, R322, R323: NOP, EI, DI, RIM, SIM, IN and OUT change nothing but PC and the T-states,
whatever the port. That IN and OUT update nothing is the spec's decision D22. -/
def Obligations.NoOperationsOnlyAdvance : Prop :=
  (encode .nop = [0x00] ∧ encode .ei = [0xFB] ∧ encode .di = [0xF3] ∧ encode .rim = [0x20] ∧ encode .sim = [0x30])
  ∧ (∀ s : State, ∀ i ∈ [Instr.nop, .ei, .di, .rim, .sim], exec i s = .next (committed i false (s.pc + 1) s))
  ∧ ∀ (s : State) (port : Byte), encode (.inPort port) = [0xDB, port] ∧ encode (.outPort port) = [0xD3, port]
      ∧ exec (.inPort port) s = .next (committed (.inPort port) false (s.pc + 2) s)
      ∧ exec (.outPort port) s = .next (committed (.outPort port) false (s.pc + 2) s)

/-- 47_stack_control.md R321: an executed HLT halts with PC at its own address and is charged its T-states; the charge is the
spec's decision D4. -/
def Obligations.HltHaltsInPlace : Prop :=
  ∀ s : State, encode .hlt = [0x76] ∧ exec .hlt s = .next (committed .hlt false s.pc { s with halted := true })

/-! ### The assembler and the run loop -/

/-- 40_assembler.md R136: the worked example, from the state after reset. -/
def Obligations.WorkedExampleAssembles : Prop :=
  ∃ (t : State) (rep : Report),
    assemble (text "MVI A,00H\nLOOP: INR A\nCPI 05H\nJNZ LOOP\nHLT") State.reset = .next (t, rep)
    ∧ rep.success = true ∧ rep.count = 5 ∧ t.pc = 0x8000 ∧ t.halted = false ∧ t.labels = [(text "LOOP", 0x8002)]
    ∧ t.mem = [(0x8000, 0x3E), (0x8002, 0x3C), (0x8003, 0xFE), (0x8004, 0x05), (0x8005, 0xC2), (0x8006, 0x02),
        (0x8007, 0x80), (0x8008, 0x76)]
    ∧ t.prog.map (fun r => (r.address, r.mnemonic, r.operands, r.opcode, r.sourceLine))
      = [(0x8000, text "MVI", [text "A", text "00H"], 0x3E, 1), (0x8002, text "INR", [text "A"], 0x3C, 2),
         (0x8003, text "CPI", [text "05H"], 0xFE, 3), (0x8005, text "JNZ", [text "LOOP"], 0xC2, 4),
         (0x8008, text "HLT", [], 0x76, 5)]

/-- 40_assembler.md R103, R123, R124, R126, their corner cases: surplus tokens, an unrecognised line, a value that is cut, a
label that is also a numeral, a numeral without digits. These rest on decisions D12, D14, D16 and D35. -/
def Obligations.AssemblerCornerCases : Prop :=
  (∀ mn ops, (mn, ops) ∈ [(text "MOV", [text "A"]), (text "MOV", [text "A", text "B", text "C"]),
      (text "MOV", [text "M", text "M"]), (text "RST", [text "8"]), (text "PUSH", [text "SP"]), (text "LDAX", [text "H"]),
      (text "INX", [text "PSW"]), (text "ADD", [text "X"])] → lookup mn ops = none)
  ∧ (∀ mn ops b, (mn, ops, b) ∈ ([(text "NOP", [text "X"], 0x00), (text "ADD", [text "B", text "C"], 0x80),
      (text "PUSH", [text "H", text "5"], 0xE5), (text "HLT", [text "1"], 0x76), (text "MVI", [text "A", text "05H"], 0x3E),
      (text "JNZ", [text "LOOP"], 0xC2)] : List (Text × List Text × Byte)) → (lookup mn ops).map OpcodeKey.opcode = some b)
  ∧ cutValue 2 256 = 0 ∧ cutValue 3 0x18000 = 0x8000
  ∧ (∀ num a, tokenValue num [(text "10", a)] (text "10") = some a.toNat)
  ∧ tokenValue strictNumerals [] (text "FFH") = some 255 ∧ tokenValue strictNumerals [] (text "BH") = some 0x0B
  ∧ tokenValue strictNumerals [] (text "H") = none ∧ tokenValue strictNumerals [] (text "-1") = none
  ∧ tokenValue strictNumerals [] (text "1GH") = none ∧ tokenValue strictNumerals [] (text "0x10") = none

/-- 40_assembler.md R130, R131, R133: what `assemble` leaves alone under every setting, where PC ends, and the `error`
setting's empty result. The `error` setting's effect is decision D23, PC without an instruction D24. -/
def Obligations.AssembleLeavesTheRestAlone : Prop :=
  ∀ (num : Numerals) (txt : Text) (s t : State) (rep : Report), assembleWith num txt s = .next (t, rep) →
    (∀ r, t.reg r = s.reg r) ∧ t.sp = s.sp ∧ t.flags = s.flags ∧ t.tStates = s.tStates ∧ t.halted = false
    ∧ t.pc = (if t.prog = [] then s.pc else 0x8000) ∧ rep.count = t.prog.length
    ∧ (∀ a : Word, (∀ r ∈ t.prog, ¬ (r.address.toNat ≤ a.toNat ∧ a.toNat < r.address.toNat + r.len)) →
        t.mem.read a = s.mem.read a)
    ∧ (s.cfg.unresolvedLine = .tolerate → rep.success = true)
    ∧ (rep.success = false → t = { s with labels := [], prog := [], halted := false })

/-- 40_assembler.md R118 to R120, R126, R128: after `assemble`, in whatever text, under whatever reading of numerals (P9) and
whatever opcode bytes (P4): every record's texts look up to its instruction, its value is the one R120 and R126 give its
operand, and its opcode byte and the bytes of its instruction stand in memory at its address. Which token is the value operand,
and that a missing one is 0, is the spec's decision D13; that `val(rec)` is cut as the bytes are (10_state.md R37) is D14. That a
record holds the instruction with its value resolved is the model's log 13 (DEDUCED). -/
def Obligations.AssembledBytesMatchTheRecords : Prop :=
  ∀ (num : Numerals) (txt : Text) (s t : State) (rep : Report), assembleWith num txt s = .next (t, rep) →
    ∀ r ∈ t.prog, ∃ k, lookup r.mnemonic r.operands = some k ∧ k.instr = r.instr.withOperand 0
      ∧ r.val = cutValue (mnemonicLength r.mnemonic) (operandNat num t.labels k.shape r.operands)
      ∧ r.opcode = opcodeByte s.cfg r.instr
      ∧ ∀ (n : Nat) (b : Byte), (encodeWith s.cfg r.instr)[n]? = some b → t.mem.read (r.address + BitVec.ofNat 16 n) = b

/-- 42_step_engine.md R166: while the operand bytes of the records stand in memory as assembled, the two settings of P7
execute the same instructions. -/
def Obligations.OperandSourcesAgreeOnUnwrittenCode : Prop :=
  ∀ s : State, (∀ r ∈ s.prog, operandBytesIntact s.mem r) →
    fetch { s with cfg := { s.cfg with operandSource := .record } }
      = fetch { s with cfg := { s.cfg with operandSource := .memory } }

/-- 40_assembler.md R135: pass 2 stands at each line where pass 1 stood, so a label that no later line defines again is the
address of the next instruction emitted. That the last definition of a name wins is the spec's decision D11; that a label at
the end of a full image, 0x10000, is stored as 0 is the model's log 15. -/
def Obligations.PassesAgree : Prop :=
  ∀ (c : Config) (num : Numerals) (labels : LabelTable) (m : Memory) (before after : List Line) (ln : Line),
    (pass2 c num labels (emptyImage m) before).cur = (pass1 loadAddress [] before).2
    ∧ (ln.label ≠ [] → (∀ q ∈ after, q.label ≠ ln.label) →
        labelAddress (pass1 loadAddress [] (before ++ ln :: after)).1 ln.label
          = some (BitVec.ofNat 16 (pass2 c num labels (emptyImage m) before).cur))

/-- 42_step_engine.md R175: a run makes at most its ceiling of steps, ends in one of three ways, and a further run continues
where the ceiling stopped it. -/
def Obligations.RunEndsInOneOfThreeWays : Prop :=
  ∀ (n m : Nat) (s : State),
    (hostRun n s).2.1 ≤ n
    ∧ ((hostRun n s).2.2 = .halted ↔ (hostRun n s).1.halted = true)
    ∧ ((hostRun n s).2.2 = .failed → hostStep (hostRun n s).1 = ((hostRun n s).1, false))
    ∧ ((hostRun n s).2.2 = .ceiling → (hostRun n s).2.1 = n
      ∧ (hostRun (n + m) s).1 = (hostRun m (hostRun n s).1).1
      ∧ (hostRun (n + m) s).2.1 = n + (hostRun m (hostRun n s).1).2.1)
end

