-- ==== Sys2Proof/Laws/Bits.lean ====
section
/-! SUPPORT. The lemmas of narrowing and of the halves of a word. -/

namespace Sys2Proof

theorem narrow8_toNat (v : Int) : (narrow8 v).toNat = (v % 256).toNat := by
  simp [narrow8, BitVec.toNat_ofInt]

theorem narrow16_toNat (v : Int) : (narrow16 v).toNat = (v % 65536).toNat := by
  simp [narrow16, BitVec.toNat_ofInt]

theorem hiByte_toNat (v : Word) : (hiByte v).toNat = v.toNat / 256 := by
  simp only [hiByte, BitVec.toNat_ofNat]; have := v.isLt; omega

theorem loByte_toNat (v : Word) : (loByte v).toNat = v.toNat % 256 := by
  simp only [loByte, BitVec.toNat_ofNat]; omega

theorem mkWord_toNat (hi lo : Byte) : (mkWord hi lo).toNat = hi.toNat * 256 + lo.toNat := by
  simp only [mkWord, BitVec.toNat_ofNat]; have := hi.isLt; have := lo.isLt; omega

/-- A word is the word of its halves. -/
@[simp] theorem mkWord_hiByte_loByte (v : Word) : mkWord (hiByte v) (loByte v) = v := by
  apply BitVec.eq_of_toNat_eq
  rw [mkWord_toNat, hiByte_toNat, loByte_toNat]; omega

@[simp] theorem hiByte_mkWord (hi lo : Byte) : hiByte (mkWord hi lo) = hi := by
  apply BitVec.eq_of_toNat_eq
  rw [hiByte_toNat, mkWord_toNat]; have := lo.isLt; omega

@[simp] theorem loByte_mkWord (hi lo : Byte) : loByte (mkWord hi lo) = lo := by
  apply BitVec.eq_of_toNat_eq
  rw [loByte_toNat, mkWord_toNat]; have := lo.isLt; omega

/-- An 8-bit value is not changed by narrowing. -/
@[simp] theorem narrow8_toNat_self (v : Byte) : narrow8 v.toNat = v := by
  apply BitVec.eq_of_toNat_eq
  rw [narrow8_toNat]; have := v.isLt; omega

end Sys2Proof
end

