-- ==== Sys2Proof/Laws/Encoding.lean ====
section
/-! SUPPORT. The decoder's map and the encoder's patterns agree, byte by byte (30_encoding.md R85, R86), and the opcode table of
the assembler reaches only rows of the map. -/

namespace Sys2Proof

/-- The row decodes `i`'s operand bytes to `i`. -/
def OpcodeRow.yields (row : OpcodeRow) (i : Instr) : Prop :=
  match row with
  | .bare j => j = i ∧ i.form.operandBytes = []
  | .byteOp f => ∃ v, f v = i ∧ i.form.operandBytes = [v]
  | .wordOp f => ∃ v, f v = i ∧ i.form.operandBytes = wordBytes v

/-- The map has the row of every instruction at the byte the patterns give it. -/
theorem decodeRow_of_instr (i : Instr) : ∃ row, decodeRow i.form.opcode = some row ∧ row.yields i := by
  cases i <;> first
    | exact ⟨.bare _, rfl, rfl, rfl⟩
    | (rename_i v
       simp only [Instr.form, Form.opcode, Opnd.code, Reg.code, Rp.code, Pair.code, AluOp.code, Cond.code, Nat.reduceMul,
         Nat.reduceAdd]
       first
         | (refine ⟨.byteOp _, rfl, ?_⟩; exact ⟨v, rfl, rfl⟩)
         | (refine ⟨.wordOp _, rfl, ?_⟩; exact ⟨v, rfl, rfl⟩))

/-- What a row of the map says of its own byte: the patterns give that byte back, and its length is the formula's. -/
def OpcodeRow.fits (b : Byte) : Option OpcodeRow → Prop
  | none => opcodeLength b = 1
  | some (.bare i) => i.form.opcode = b ∧ i.form.operandBytes = [] ∧ opcodeLength b = 1
  | some (.byteOp f) => opcodeLength b = 2 ∧ ∀ v, (f v).form.opcode = b ∧ (f v).form.operandBytes = [v]
  | some (.wordOp f) => opcodeLength b = 3 ∧ ∀ v, (f v).form.opcode = b ∧ (f v).form.operandBytes = wordBytes v

theorem decodeRow_fits_nat (n : Nat) (h : n < 256) : OpcodeRow.fits (BitVec.ofNat 8 n) (decodeRow (BitVec.ofNat 8 n)) := by
  interval_cases n <;> first
    | exact ⟨rfl, rfl, rfl⟩
    | exact ⟨rfl, fun _ => ⟨rfl, rfl⟩⟩
    | rfl

/-- Every entry of the map fits its byte. -/
theorem decodeRow_fits (b : Byte) : OpcodeRow.fits b (decodeRow b) := by
  have := decodeRow_fits_nat b.toNat b.isLt
  simpa using this

/-- The instruction of an opcode byte encodes with that byte. -/
theorem decodeOpcode_opcode {op : Byte} {v : Word} {i : Instr} (h : decodeOpcode op v = some i) : i.form.opcode = op := by
  simp only [decodeOpcode, Option.map_eq_some_iff] at h
  obtain ⟨row, hrow, rfl⟩ := h
  have hf := decodeRow_fits op
  rw [hrow] at hf
  cases row with
  | bare i => exact hf.1
  | byteOp f => exact (hf.2 _).1
  | wordOp f => exact (hf.2 _).1

/-- An encoding is as long as its opcode byte says (30_encoding.md R72). -/
theorem encode_length (i : Instr) : (encode i).length = opcodeLength i.form.opcode := by
  obtain ⟨row, h1, h2⟩ := decodeRow_of_instr i
  have hf := decodeRow_fits i.form.opcode
  rw [h1] at hf
  cases row with
  | bare j => simp [encode, h2.2, hf.2.2]
  | byteOp f => obtain ⟨v, _, h⟩ := h2; simp [encode, h, hf.1]
  | wordOp f => obtain ⟨v, _, h⟩ := h2; simp [encode, h, hf.1, wordBytes]

/-! ### Operands -/

/-- Another operand is the same signature. -/
@[simp] theorem withOperand_opcode (v : Word) (i : Instr) : (i.withOperand v).form.opcode = i.form.opcode := by
  cases i <;> rfl

@[simp] theorem withOperand_length (v : Word) (i : Instr) : (i.withOperand v).length = i.length := by cases i <;> rfl

@[simp] theorem withOperand_eq_hlt (v : Word) (i : Instr) : i.withOperand v = .hlt ↔ i = .hlt := by
  cases i <;> simp [Instr.withOperand]

@[simp] theorem withOperand_withOperand (v w : Word) (i : Instr) : (i.withOperand w).withOperand v = i.withOperand v := by
  cases i <;> rfl

/-- The operand a value leaves gives the same instruction as the value. -/
@[simp] theorem withOperand_operand (v : Word) (i : Instr) : i.withOperand (i.withOperand v).operand = i.withOperand v := by
  cases i <;> simp only [Instr.withOperand, Instr.operand, Instr.form, Form.operandBytes, wordBytes, loByte_mkWord,
    mkWord_hiByte_loByte]

@[simp] theorem withOperand_self (i : Instr) : i.withOperand i.operand = i := by
  cases i <;> simp only [Instr.withOperand, Instr.operand, Instr.form, Form.operandBytes, wordBytes, loByte_mkWord,
    mkWord_hiByte_loByte]

/-- The map at an instruction's byte answers that instruction, with the operand given (30_encoding.md R85). -/
theorem decodeOpcode_of_instr (v : Word) (i : Instr) : decodeOpcode i.form.opcode v = some (i.withOperand v) := by
  cases i <;> first
    | rfl
    | (simp only [Instr.form, Form.opcode, Opnd.code, Reg.code, Rp.code, Pair.code, AluOp.code, Cond.code, Nat.reduceMul,
         Nat.reduceAdd]; rfl)

/-- The lengths by byte and by form agree (30_encoding.md R72). -/
theorem length_eq_opcodeLength (i : Instr) : i.length = opcodeLength i.form.opcode := by
  rw [← encode_length]; cases i <;> rfl

theorem length_cases (i : Instr) : i.length = 1 ∨ i.length = 2 ∨ i.length = 3 := by
  cases i <;> simp [Instr.length, Instr.form, Form.length]

end Sys2Proof
end

