-- ==== Sys2Proof/Laws/Memory.lean ====
section
/-! SUPPORT. The laws of the memory store: a read after a write, and that every operation keeps the canonical form
(20_memory.md R50 to R57). -/

namespace Sys2Proof.Machine

theorem lookup_insert (m : Memory) (a b : Nat) (v : Byte) :
    (Memory.insert m a v).lookup b = if b = a then v else m.lookup b := by
  induction m with
  | nil => simp [Memory.insert, Memory.lookup]
  | cons c rest ih =>
    obtain ⟨k, w⟩ := c
    simp only [Memory.insert]
    split
    · by_cases h : b = a <;> simp [Memory.lookup, h]
    · split
      · rename_i h; subst h
        by_cases h : b = a <;> simp [Memory.lookup, h]
      · by_cases h : b = k
        · subst h; simp_all [Memory.lookup, eq_comm]
        · simp [Memory.lookup, h, ih]

theorem lookup_unlist (m : Memory) (a b : Nat) :
    Memory.lookup (m.filter (fun cell => cell.1 ≠ a)) b = if b = a then unlistedByte else m.lookup b := by
  induction m with
  | nil => simp [Memory.lookup]
  | cons c rest ih =>
    obtain ⟨k, w⟩ := c
    by_cases hk : k = a
    · subst hk
      rw [List.filter_cons_of_neg (by simp), ih]
      by_cases h : b = k <;> simp [Memory.lookup, h]
    · rw [List.filter_cons_of_pos (by simpa using hk)]
      by_cases h : b = k
      · subst h; simp [Memory.lookup, hk]
      · simp only [Memory.lookup, h, if_false]; exact ih

/-- A read after a write: the written byte at the written address, the old byte everywhere else (20_memory.md R51, R52). -/
theorem read_write (m : Memory) (a b : Word) (v : Byte) :
    (m.write a v).read b = if b = a then v else m.read b := by
  have hab : (b.toNat = a.toNat) ↔ b = a := ⟨fun h => BitVec.eq_of_toNat_eq h, fun h => by rw [h]⟩
  simp only [Memory.read, Memory.write]
  split
  · rename_i hv
    rw [lookup_unlist]
    simp only [hab, hv]
  · rw [lookup_insert]
    simp only [hab]

@[simp] theorem read_write_same (m : Memory) (a : Word) (v : Byte) : (m.write a v).read a = v := by
  simp [read_write]

theorem read_write_other (m : Memory) {a b : Word} (v : Byte) (h : b ≠ a) : (m.write a v).read b = m.read b := by
  simp [read_write, h]

/-- A word reads back; its two addresses never coincide (20_memory.md R55). -/
theorem succ_ne (a : Word) : a + 1 ≠ a := by bv_omega

theorem read_writeWord (m : Memory) (a v b : Word) :
    (m.writeWord a v).read b = if b = a + 1 then hiByte v else if b = a then loByte v else m.read b := by
  simp only [Memory.writeWord, read_write]

@[simp] theorem readWord_writeWord (m : Memory) (a v : Word) : (m.writeWord a v).readWord a = v := by
  have h : a ≠ a + 1 := (succ_ne a).symm
  rw [Memory.readWord, read_writeWord, read_writeWord, if_pos rfl, if_neg h, if_pos rfl, mkWord_hiByte_loByte]

/-! ### The canonical form -/

theorem wfFrom_mono {m : Memory} {lo lo' : Nat} (h : Memory.wfFrom lo m = true) (hle : lo' ≤ lo) :
    Memory.wfFrom lo' m = true := by
  cases m with
  | nil => rfl
  | cons c rest =>
    obtain ⟨k, w⟩ := c
    simp only [Memory.wfFrom, Bool.and_eq_true, decide_eq_true_eq] at h ⊢
    exact ⟨⟨⟨by omega, h.1.1.2⟩, h.1.2⟩, h.2⟩

theorem wfFrom_insert {m : Memory} {lo a : Nat} {v : Byte} (h : Memory.wfFrom lo m = true) (hlo : lo ≤ a)
    (ha : a < 65536) (hv : v ≠ unlistedByte) : Memory.wfFrom lo (Memory.insert m a v) = true := by
  induction m generalizing lo with
  | nil => simp [Memory.insert, Memory.wfFrom, hlo, ha, hv]
  | cons c rest ih =>
    obtain ⟨k, w⟩ := c
    simp only [Memory.wfFrom, Bool.and_eq_true, decide_eq_true_eq] at h
    simp only [Memory.insert]
    split
    · rename_i hk
      simp only [Memory.wfFrom, Bool.and_eq_true, decide_eq_true_eq]
      exact ⟨⟨⟨hlo, ha⟩, hv⟩, ⟨⟨by omega, h.1.1.2⟩, h.1.2⟩, h.2⟩
    · split
      · rename_i hk; subst hk
        simp only [Memory.wfFrom, Bool.and_eq_true, decide_eq_true_eq]
        exact ⟨⟨⟨hlo, ha⟩, hv⟩, h.2⟩
      · simp only [Memory.wfFrom, Bool.and_eq_true, decide_eq_true_eq]
        exact ⟨h.1, ih h.2 (by omega)⟩

theorem wfFrom_filter {m : Memory} {lo : Nat} (p : Host.Cell → Bool) (h : Memory.wfFrom lo m = true) :
    Memory.wfFrom lo (m.filter p) = true := by
  induction m generalizing lo with
  | nil => rfl
  | cons c rest ih =>
    obtain ⟨k, w⟩ := c
    simp only [Memory.wfFrom, Bool.and_eq_true, decide_eq_true_eq] at h
    by_cases hp : p (k, w) = true
    · rw [List.filter_cons_of_pos hp]
      simp only [Memory.wfFrom, Bool.and_eq_true, decide_eq_true_eq]
      exact ⟨h.1, ih h.2⟩
    · rw [List.filter_cons_of_neg hp]
      exact wfFrom_mono (ih h.2) (by omega)

/-- A write keeps the canonical form. -/
theorem write_wf {m : Memory} (h : m.wf = true) (a : Word) (v : Byte) : (m.write a v).wf = true := by
  simp only [Memory.write]
  split
  · exact wfFrom_filter _ h
  · rename_i hv
    exact wfFrom_insert h (Nat.zero_le _) a.isLt hv

theorem writeWord_wf {m : Memory} (h : m.wf = true) (a v : Word) : (m.writeWord a v).wf = true :=
  write_wf (write_wf h _ _) _ _

/-- Memory after reset has the canonical form. -/
theorem reset_mem_wf : State.reset.mem.wf = true := rfl

theorem store8_mem_wf {s : State} (h : s.mem.wf = true) (a : Word) (v : Byte) : (s.store8 a v).mem.wf = true :=
  write_wf h a v

theorem store16_mem_wf {s : State} (h : s.mem.wf = true) (a v : Word) : (s.store16 a v).mem.wf = true :=
  writeWord_wf h a v

theorem push16_mem_wf {s : State} (h : s.mem.wf = true) (v : Word) : (s.push16 v).mem.wf = true :=
  write_wf (write_wf h _ _) _ _

theorem wfFrom_lookup_lt {m : Memory} {lo a : Nat} (h : Memory.wfFrom lo m = true) (ha : a < lo) :
    m.lookup a = unlistedByte := by
  induction m generalizing lo with
  | nil => rfl
  | cons c rest ih =>
    obtain ⟨k, w⟩ := c
    simp only [Memory.wfFrom, Bool.and_eq_true, decide_eq_true_eq] at h
    have : a ≠ k := by omega
    simp only [Memory.lookup, this, if_false]
    exact ih h.2 (by omega)

/-- In the canonical form, memories that read alike are equal data. -/
theorem wfFrom_ext {m n : Memory} {lo : Nat} (hm : Memory.wfFrom lo m = true) (hn : Memory.wfFrom lo n = true)
    (h : ∀ a, m.lookup a = n.lookup a) : m = n := by
  induction m generalizing n lo with
  | nil =>
    cases n with
    | nil => rfl
    | cons c rest =>
      obtain ⟨k, w⟩ := c
      simp only [Memory.wfFrom, Bool.and_eq_true, decide_eq_true_eq] at hn
      have := h k
      simp only [Memory.lookup, if_true] at this
      exact absurd this.symm hn.1.2
  | cons c rest ih =>
    obtain ⟨k, w⟩ := c
    have hm' := hm
    simp only [Memory.wfFrom, Bool.and_eq_true, decide_eq_true_eq] at hm
    cases n with
    | nil =>
      have := h k
      simp only [Memory.lookup, if_true] at this
      exact absurd this hm.1.2
    | cons c' rest' =>
      obtain ⟨k', w'⟩ := c'
      have hn' := hn
      simp only [Memory.wfFrom, Bool.and_eq_true, decide_eq_true_eq] at hn
      have hk : k = k' := by
        rcases Nat.lt_trichotomy k k' with hlt | heq | hgt
        · have h1 := h k
          have h2 : Memory.wfFrom k' ((k', w') :: rest') = true := by
            simp only [Memory.wfFrom, Bool.and_eq_true, decide_eq_true_eq]
            exact ⟨⟨⟨Nat.le_refl _, hn.1.1.2⟩, hn.1.2⟩, hn.2⟩
          rw [wfFrom_lookup_lt h2 hlt] at h1
          simp only [Memory.lookup, if_true] at h1
          exact absurd h1 hm.1.2
        · exact heq
        · have h1 := h k'
          have h2 : Memory.wfFrom k ((k, w) :: rest) = true := by
            simp only [Memory.wfFrom, Bool.and_eq_true, decide_eq_true_eq]
            exact ⟨⟨⟨Nat.le_refl _, hm.1.1.2⟩, hm.1.2⟩, hm.2⟩
          rw [wfFrom_lookup_lt h2 hgt] at h1
          simp only [Memory.lookup, if_true] at h1
          exact absurd h1.symm hn.1.2
      subst hk
      have hw := h k
      simp only [Memory.lookup, if_true] at hw
      subst hw
      have : rest = rest' := by
        refine ih hm.2 hn.2 fun a => ?_
        by_cases ha : a = k
        · subst ha
          rw [wfFrom_lookup_lt hm.2 (Nat.lt_succ_self _), wfFrom_lookup_lt hn.2 (Nat.lt_succ_self _)]
        · have := h a
          simpa only [Memory.lookup, ha, if_false] using this
      rw [this]

/-! ### The stack -/

theorem read_push16 (s : State) (v b : Word) :
    (s.push16 v).mem.read b
      = if b = s.sp - 2 then loByte v else if b = s.sp - 1 then hiByte v else s.mem.read b := by
  simp only [State.push16, read_write]

/-- `Pop16` after `Push16(v)` returns `v` and restores SP (20_memory.md R57). -/
theorem popValue_push16 (s : State) (v : Word) : (s.push16 v).popValue = v ∧ (s.push16 v).popSp.sp = s.sp := by
  have h1 : s.sp - 2 + 1 = s.sp - 1 := by bv_omega
  have h2 : s.sp - 1 ≠ s.sp - 2 := by bv_omega
  have h3 : s.sp - 2 + 2 = s.sp := by bv_omega
  refine ⟨?_, h3⟩
  have hsp : (s.push16 v).sp = s.sp - 2 := rfl
  simp only [State.popValue, State.load8]
  rw [read_push16, read_push16, hsp, h1, if_pos rfl, if_neg h2, if_pos rfl, mkWord_hiByte_loByte]

end Sys2Proof.Machine
end

