-- ==== Sys2Proof/Laws/State.lean ====
section
/-! SUPPORT. The small lemmas of the state's updates: one for each field an update leaves or writes, so that no later proof
unfolds an update. -/

namespace Sys2Proof.Machine


/-! ### setReg -/

@[simp] theorem setReg_pc (s : State) (r : Reg) (v : Byte) : (s.setReg r v).pc = s.pc := by cases r <;> rfl
@[simp] theorem setReg_sp (s : State) (r : Reg) (v : Byte) : (s.setReg r v).sp = s.sp := by cases r <;> rfl
@[simp] theorem setReg_flags (s : State) (r : Reg) (v : Byte) : (s.setReg r v).flags = s.flags := by cases r <;> rfl
@[simp] theorem setReg_halted (s : State) (r : Reg) (v : Byte) : (s.setReg r v).halted = s.halted := by cases r <;> rfl
@[simp] theorem setReg_tStates (s : State) (r : Reg) (v : Byte) : (s.setReg r v).tStates = s.tStates := by cases r <;> rfl
@[simp] theorem setReg_mem (s : State) (r : Reg) (v : Byte) : (s.setReg r v).mem = s.mem := by cases r <;> rfl
@[simp] theorem setReg_prog (s : State) (r : Reg) (v : Byte) : (s.setReg r v).prog = s.prog := by cases r <;> rfl
@[simp] theorem setReg_labels (s : State) (r : Reg) (v : Byte) : (s.setReg r v).labels = s.labels := by cases r <;> rfl
@[simp] theorem setReg_cfg (s : State) (r : Reg) (v : Byte) : (s.setReg r v).cfg = s.cfg := by cases r <;> rfl

/-! ### setPair -/

@[simp] theorem setPair_pc (s : State) (p : Pair) (v : Word) : (s.setPair p v).pc = s.pc := by cases p <;> rfl
@[simp] theorem setPair_sp (s : State) (p : Pair) (v : Word) : (s.setPair p v).sp = s.sp := by cases p <;> rfl
@[simp] theorem setPair_flags (s : State) (p : Pair) (v : Word) : (s.setPair p v).flags = s.flags := by cases p <;> rfl
@[simp] theorem setPair_halted (s : State) (p : Pair) (v : Word) : (s.setPair p v).halted = s.halted := by cases p <;> rfl
@[simp] theorem setPair_tStates (s : State) (p : Pair) (v : Word) : (s.setPair p v).tStates = s.tStates := by cases p <;> rfl
@[simp] theorem setPair_mem (s : State) (p : Pair) (v : Word) : (s.setPair p v).mem = s.mem := by cases p <;> rfl
@[simp] theorem setPair_prog (s : State) (p : Pair) (v : Word) : (s.setPair p v).prog = s.prog := by cases p <;> rfl
@[simp] theorem setPair_labels (s : State) (p : Pair) (v : Word) : (s.setPair p v).labels = s.labels := by cases p <;> rfl
@[simp] theorem setPair_cfg (s : State) (p : Pair) (v : Word) : (s.setPair p v).cfg = s.cfg := by cases p <;> rfl

/-! ### store8 -/

@[simp] theorem store8_a (s : State) (x : Word) (v : Byte) : (s.store8 x v).a = s.a := rfl
@[simp] theorem store8_b (s : State) (x : Word) (v : Byte) : (s.store8 x v).b = s.b := rfl
@[simp] theorem store8_c (s : State) (x : Word) (v : Byte) : (s.store8 x v).c = s.c := rfl
@[simp] theorem store8_d (s : State) (x : Word) (v : Byte) : (s.store8 x v).d = s.d := rfl
@[simp] theorem store8_e (s : State) (x : Word) (v : Byte) : (s.store8 x v).e = s.e := rfl
@[simp] theorem store8_h (s : State) (x : Word) (v : Byte) : (s.store8 x v).h = s.h := rfl
@[simp] theorem store8_l (s : State) (x : Word) (v : Byte) : (s.store8 x v).l = s.l := rfl
@[simp] theorem store8_pc (s : State) (x : Word) (v : Byte) : (s.store8 x v).pc = s.pc := rfl
@[simp] theorem store8_sp (s : State) (x : Word) (v : Byte) : (s.store8 x v).sp = s.sp := rfl
@[simp] theorem store8_flags (s : State) (x : Word) (v : Byte) : (s.store8 x v).flags = s.flags := rfl
@[simp] theorem store8_halted (s : State) (x : Word) (v : Byte) : (s.store8 x v).halted = s.halted := rfl
@[simp] theorem store8_tStates (s : State) (x : Word) (v : Byte) : (s.store8 x v).tStates = s.tStates := rfl
@[simp] theorem store8_mem (s : State) (x : Word) (v : Byte) : (s.store8 x v).mem = s.mem.write x v := rfl
@[simp] theorem store8_prog (s : State) (x : Word) (v : Byte) : (s.store8 x v).prog = s.prog := rfl
@[simp] theorem store8_labels (s : State) (x : Word) (v : Byte) : (s.store8 x v).labels = s.labels := rfl
@[simp] theorem store8_cfg (s : State) (x : Word) (v : Byte) : (s.store8 x v).cfg = s.cfg := rfl

/-! ### store16 -/

@[simp] theorem store16_a (s : State) (x v : Word) : (s.store16 x v).a = s.a := rfl
@[simp] theorem store16_b (s : State) (x v : Word) : (s.store16 x v).b = s.b := rfl
@[simp] theorem store16_c (s : State) (x v : Word) : (s.store16 x v).c = s.c := rfl
@[simp] theorem store16_d (s : State) (x v : Word) : (s.store16 x v).d = s.d := rfl
@[simp] theorem store16_e (s : State) (x v : Word) : (s.store16 x v).e = s.e := rfl
@[simp] theorem store16_h (s : State) (x v : Word) : (s.store16 x v).h = s.h := rfl
@[simp] theorem store16_l (s : State) (x v : Word) : (s.store16 x v).l = s.l := rfl
@[simp] theorem store16_pc (s : State) (x v : Word) : (s.store16 x v).pc = s.pc := rfl
@[simp] theorem store16_sp (s : State) (x v : Word) : (s.store16 x v).sp = s.sp := rfl
@[simp] theorem store16_flags (s : State) (x v : Word) : (s.store16 x v).flags = s.flags := rfl
@[simp] theorem store16_halted (s : State) (x v : Word) : (s.store16 x v).halted = s.halted := rfl
@[simp] theorem store16_tStates (s : State) (x v : Word) : (s.store16 x v).tStates = s.tStates := rfl
@[simp] theorem store16_mem (s : State) (x v : Word) : (s.store16 x v).mem = s.mem.writeWord x v := rfl
@[simp] theorem store16_prog (s : State) (x v : Word) : (s.store16 x v).prog = s.prog := rfl
@[simp] theorem store16_labels (s : State) (x v : Word) : (s.store16 x v).labels = s.labels := rfl
@[simp] theorem store16_cfg (s : State) (x v : Word) : (s.store16 x v).cfg = s.cfg := rfl

/-! ### push16 -/

@[simp] theorem push16_a (s : State) (v : Word) : (s.push16 v).a = s.a := rfl
@[simp] theorem push16_b (s : State) (v : Word) : (s.push16 v).b = s.b := rfl
@[simp] theorem push16_c (s : State) (v : Word) : (s.push16 v).c = s.c := rfl
@[simp] theorem push16_d (s : State) (v : Word) : (s.push16 v).d = s.d := rfl
@[simp] theorem push16_e (s : State) (v : Word) : (s.push16 v).e = s.e := rfl
@[simp] theorem push16_h (s : State) (v : Word) : (s.push16 v).h = s.h := rfl
@[simp] theorem push16_l (s : State) (v : Word) : (s.push16 v).l = s.l := rfl
@[simp] theorem push16_pc (s : State) (v : Word) : (s.push16 v).pc = s.pc := rfl
@[simp] theorem push16_sp (s : State) (v : Word) : (s.push16 v).sp = s.sp - 2 := rfl
@[simp] theorem push16_flags (s : State) (v : Word) : (s.push16 v).flags = s.flags := rfl
@[simp] theorem push16_halted (s : State) (v : Word) : (s.push16 v).halted = s.halted := rfl
@[simp] theorem push16_tStates (s : State) (v : Word) : (s.push16 v).tStates = s.tStates := rfl
@[simp] theorem push16_mem (s : State) (v : Word) : (s.push16 v).mem = (s.mem.write (s.sp - 1) (hiByte v)).write (s.sp - 2) (loByte v) := rfl
@[simp] theorem push16_prog (s : State) (v : Word) : (s.push16 v).prog = s.prog := rfl
@[simp] theorem push16_labels (s : State) (v : Word) : (s.push16 v).labels = s.labels := rfl
@[simp] theorem push16_cfg (s : State) (v : Word) : (s.push16 v).cfg = s.cfg := rfl

/-! ### popSp -/

@[simp] theorem popSp_a (s : State)  : (s.popSp).a = s.a := rfl
@[simp] theorem popSp_b (s : State)  : (s.popSp).b = s.b := rfl
@[simp] theorem popSp_c (s : State)  : (s.popSp).c = s.c := rfl
@[simp] theorem popSp_d (s : State)  : (s.popSp).d = s.d := rfl
@[simp] theorem popSp_e (s : State)  : (s.popSp).e = s.e := rfl
@[simp] theorem popSp_h (s : State)  : (s.popSp).h = s.h := rfl
@[simp] theorem popSp_l (s : State)  : (s.popSp).l = s.l := rfl
@[simp] theorem popSp_pc (s : State)  : (s.popSp).pc = s.pc := rfl
@[simp] theorem popSp_sp (s : State)  : (s.popSp).sp = s.sp + 2 := rfl
@[simp] theorem popSp_flags (s : State)  : (s.popSp).flags = s.flags := rfl
@[simp] theorem popSp_halted (s : State)  : (s.popSp).halted = s.halted := rfl
@[simp] theorem popSp_tStates (s : State)  : (s.popSp).tStates = s.tStates := rfl
@[simp] theorem popSp_mem (s : State)  : (s.popSp).mem = s.mem := rfl
@[simp] theorem popSp_prog (s : State)  : (s.popSp).prog = s.prog := rfl
@[simp] theorem popSp_labels (s : State)  : (s.popSp).labels = s.labels := rfl
@[simp] theorem popSp_cfg (s : State)  : (s.popSp).cfg = s.cfg := rfl

/-! ### enterHalt -/

@[simp] theorem enterHalt_a (s : State)  : (s.enterHalt).a = s.a := rfl
@[simp] theorem enterHalt_b (s : State)  : (s.enterHalt).b = s.b := rfl
@[simp] theorem enterHalt_c (s : State)  : (s.enterHalt).c = s.c := rfl
@[simp] theorem enterHalt_d (s : State)  : (s.enterHalt).d = s.d := rfl
@[simp] theorem enterHalt_e (s : State)  : (s.enterHalt).e = s.e := rfl
@[simp] theorem enterHalt_h (s : State)  : (s.enterHalt).h = s.h := rfl
@[simp] theorem enterHalt_l (s : State)  : (s.enterHalt).l = s.l := rfl
@[simp] theorem enterHalt_pc (s : State)  : (s.enterHalt).pc = s.pc := rfl
@[simp] theorem enterHalt_sp (s : State)  : (s.enterHalt).sp = s.sp := rfl
@[simp] theorem enterHalt_flags (s : State)  : (s.enterHalt).flags = s.flags := rfl
@[simp] theorem enterHalt_halted (s : State)  : (s.enterHalt).halted = true := rfl
@[simp] theorem enterHalt_tStates (s : State)  : (s.enterHalt).tStates = s.tStates := rfl
@[simp] theorem enterHalt_mem (s : State)  : (s.enterHalt).mem = s.mem := rfl
@[simp] theorem enterHalt_prog (s : State)  : (s.enterHalt).prog = s.prog := rfl
@[simp] theorem enterHalt_labels (s : State)  : (s.enterHalt).labels = s.labels := rfl
@[simp] theorem enterHalt_cfg (s : State)  : (s.enterHalt).cfg = s.cfg := rfl

/-! ### setFlags -/

@[simp] theorem setFlags_a (s : State) (f : Flags) : (s.setFlags f).a = s.a := rfl
@[simp] theorem setFlags_b (s : State) (f : Flags) : (s.setFlags f).b = s.b := rfl
@[simp] theorem setFlags_c (s : State) (f : Flags) : (s.setFlags f).c = s.c := rfl
@[simp] theorem setFlags_d (s : State) (f : Flags) : (s.setFlags f).d = s.d := rfl
@[simp] theorem setFlags_e (s : State) (f : Flags) : (s.setFlags f).e = s.e := rfl
@[simp] theorem setFlags_h (s : State) (f : Flags) : (s.setFlags f).h = s.h := rfl
@[simp] theorem setFlags_l (s : State) (f : Flags) : (s.setFlags f).l = s.l := rfl
@[simp] theorem setFlags_pc (s : State) (f : Flags) : (s.setFlags f).pc = s.pc := rfl
@[simp] theorem setFlags_sp (s : State) (f : Flags) : (s.setFlags f).sp = s.sp := rfl
@[simp] theorem setFlags_flags (s : State) (f : Flags) : (s.setFlags f).flags = f := rfl
@[simp] theorem setFlags_halted (s : State) (f : Flags) : (s.setFlags f).halted = s.halted := rfl
@[simp] theorem setFlags_tStates (s : State) (f : Flags) : (s.setFlags f).tStates = s.tStates := rfl
@[simp] theorem setFlags_mem (s : State) (f : Flags) : (s.setFlags f).mem = s.mem := rfl
@[simp] theorem setFlags_prog (s : State) (f : Flags) : (s.setFlags f).prog = s.prog := rfl
@[simp] theorem setFlags_labels (s : State) (f : Flags) : (s.setFlags f).labels = s.labels := rfl
@[simp] theorem setFlags_cfg (s : State) (f : Flags) : (s.setFlags f).cfg = s.cfg := rfl

/-! ### setAF -/

@[simp] theorem setAF_a (s : State) (r : Byte × Flags) : (s.setAF r).a = r.1 := rfl
@[simp] theorem setAF_b (s : State) (r : Byte × Flags) : (s.setAF r).b = s.b := rfl
@[simp] theorem setAF_c (s : State) (r : Byte × Flags) : (s.setAF r).c = s.c := rfl
@[simp] theorem setAF_d (s : State) (r : Byte × Flags) : (s.setAF r).d = s.d := rfl
@[simp] theorem setAF_e (s : State) (r : Byte × Flags) : (s.setAF r).e = s.e := rfl
@[simp] theorem setAF_h (s : State) (r : Byte × Flags) : (s.setAF r).h = s.h := rfl
@[simp] theorem setAF_l (s : State) (r : Byte × Flags) : (s.setAF r).l = s.l := rfl
@[simp] theorem setAF_pc (s : State) (r : Byte × Flags) : (s.setAF r).pc = s.pc := rfl
@[simp] theorem setAF_sp (s : State) (r : Byte × Flags) : (s.setAF r).sp = s.sp := rfl
@[simp] theorem setAF_flags (s : State) (r : Byte × Flags) : (s.setAF r).flags = r.2 := rfl
@[simp] theorem setAF_halted (s : State) (r : Byte × Flags) : (s.setAF r).halted = s.halted := rfl
@[simp] theorem setAF_tStates (s : State) (r : Byte × Flags) : (s.setAF r).tStates = s.tStates := rfl
@[simp] theorem setAF_mem (s : State) (r : Byte × Flags) : (s.setAF r).mem = s.mem := rfl
@[simp] theorem setAF_prog (s : State) (r : Byte × Flags) : (s.setAF r).prog = s.prog := rfl
@[simp] theorem setAF_labels (s : State) (r : Byte × Flags) : (s.setAF r).labels = s.labels := rfl
@[simp] theorem setAF_cfg (s : State) (r : Byte × Flags) : (s.setAF r).cfg = s.cfg := rfl

/-! ### setACy -/

@[simp] theorem setACy_a (s : State) (r : Byte × Bool) : (s.setACy r).a = r.1 := rfl
@[simp] theorem setACy_b (s : State) (r : Byte × Bool) : (s.setACy r).b = s.b := rfl
@[simp] theorem setACy_c (s : State) (r : Byte × Bool) : (s.setACy r).c = s.c := rfl
@[simp] theorem setACy_d (s : State) (r : Byte × Bool) : (s.setACy r).d = s.d := rfl
@[simp] theorem setACy_e (s : State) (r : Byte × Bool) : (s.setACy r).e = s.e := rfl
@[simp] theorem setACy_h (s : State) (r : Byte × Bool) : (s.setACy r).h = s.h := rfl
@[simp] theorem setACy_l (s : State) (r : Byte × Bool) : (s.setACy r).l = s.l := rfl
@[simp] theorem setACy_pc (s : State) (r : Byte × Bool) : (s.setACy r).pc = s.pc := rfl
@[simp] theorem setACy_sp (s : State) (r : Byte × Bool) : (s.setACy r).sp = s.sp := rfl
@[simp] theorem setACy_flags (s : State) (r : Byte × Bool) : (s.setACy r).flags = ⟨s.flags.s, s.flags.z, s.flags.ac, s.flags.p, r.2⟩ := rfl
@[simp] theorem setACy_halted (s : State) (r : Byte × Bool) : (s.setACy r).halted = s.halted := rfl
@[simp] theorem setACy_tStates (s : State) (r : Byte × Bool) : (s.setACy r).tStates = s.tStates := rfl
@[simp] theorem setACy_mem (s : State) (r : Byte × Bool) : (s.setACy r).mem = s.mem := rfl
@[simp] theorem setACy_prog (s : State) (r : Byte × Bool) : (s.setACy r).prog = s.prog := rfl
@[simp] theorem setACy_labels (s : State) (r : Byte × Bool) : (s.setACy r).labels = s.labels := rfl
@[simp] theorem setACy_cfg (s : State) (r : Byte × Bool) : (s.setACy r).cfg = s.cfg := rfl

/-! ### setPsw -/

@[simp] theorem setPsw_a (s : State) (w : Word) : (s.setPsw w).a = hiByte w := rfl
@[simp] theorem setPsw_b (s : State) (w : Word) : (s.setPsw w).b = s.b := rfl
@[simp] theorem setPsw_c (s : State) (w : Word) : (s.setPsw w).c = s.c := rfl
@[simp] theorem setPsw_d (s : State) (w : Word) : (s.setPsw w).d = s.d := rfl
@[simp] theorem setPsw_e (s : State) (w : Word) : (s.setPsw w).e = s.e := rfl
@[simp] theorem setPsw_h (s : State) (w : Word) : (s.setPsw w).h = s.h := rfl
@[simp] theorem setPsw_l (s : State) (w : Word) : (s.setPsw w).l = s.l := rfl
@[simp] theorem setPsw_pc (s : State) (w : Word) : (s.setPsw w).pc = s.pc := rfl
@[simp] theorem setPsw_sp (s : State) (w : Word) : (s.setPsw w).sp = s.sp := rfl
@[simp] theorem setPsw_flags (s : State) (w : Word) : (s.setPsw w).flags = unpackFlags (loByte w) := rfl
@[simp] theorem setPsw_halted (s : State) (w : Word) : (s.setPsw w).halted = s.halted := rfl
@[simp] theorem setPsw_tStates (s : State) (w : Word) : (s.setPsw w).tStates = s.tStates := rfl
@[simp] theorem setPsw_mem (s : State) (w : Word) : (s.setPsw w).mem = s.mem := rfl
@[simp] theorem setPsw_prog (s : State) (w : Word) : (s.setPsw w).prog = s.prog := rfl
@[simp] theorem setPsw_labels (s : State) (w : Word) : (s.setPsw w).labels = s.labels := rfl
@[simp] theorem setPsw_cfg (s : State) (w : Word) : (s.setPsw w).cfg = s.cfg := rfl

/-! ### setRp -/

@[simp] theorem setRp_pc (s : State) (p : Rp) (v : Word) : (s.setRp p v).pc = s.pc := by
  cases p with
  | pair p => cases p <;> rfl
  | sp => rfl
@[simp] theorem setRp_flags (s : State) (p : Rp) (v : Word) : (s.setRp p v).flags = s.flags := by
  cases p with
  | pair p => cases p <;> rfl
  | sp => rfl
@[simp] theorem setRp_halted (s : State) (p : Rp) (v : Word) : (s.setRp p v).halted = s.halted := by
  cases p with
  | pair p => cases p <;> rfl
  | sp => rfl
@[simp] theorem setRp_tStates (s : State) (p : Rp) (v : Word) : (s.setRp p v).tStates = s.tStates := by
  cases p with
  | pair p => cases p <;> rfl
  | sp => rfl
@[simp] theorem setRp_mem (s : State) (p : Rp) (v : Word) : (s.setRp p v).mem = s.mem := by
  cases p with
  | pair p => cases p <;> rfl
  | sp => rfl
@[simp] theorem setRp_prog (s : State) (p : Rp) (v : Word) : (s.setRp p v).prog = s.prog := by
  cases p with
  | pair p => cases p <;> rfl
  | sp => rfl
@[simp] theorem setRp_labels (s : State) (p : Rp) (v : Word) : (s.setRp p v).labels = s.labels := by
  cases p with
  | pair p => cases p <;> rfl
  | sp => rfl
@[simp] theorem setRp_cfg (s : State) (p : Rp) (v : Word) : (s.setRp p v).cfg = s.cfg := by
  cases p with
  | pair p => cases p <;> rfl
  | sp => rfl

/-! ### setRq -/

@[simp] theorem setRq_pc (s : State) (q : Rq) (v : Word) : (s.setRq q v).pc = s.pc := by
  cases q with
  | pair p => cases p <;> rfl
  | psw => rfl
@[simp] theorem setRq_sp (s : State) (q : Rq) (v : Word) : (s.setRq q v).sp = s.sp := by
  cases q with
  | pair p => cases p <;> rfl
  | psw => rfl
@[simp] theorem setRq_halted (s : State) (q : Rq) (v : Word) : (s.setRq q v).halted = s.halted := by
  cases q with
  | pair p => cases p <;> rfl
  | psw => rfl
@[simp] theorem setRq_tStates (s : State) (q : Rq) (v : Word) : (s.setRq q v).tStates = s.tStates := by
  cases q with
  | pair p => cases p <;> rfl
  | psw => rfl
@[simp] theorem setRq_mem (s : State) (q : Rq) (v : Word) : (s.setRq q v).mem = s.mem := by
  cases q with
  | pair p => cases p <;> rfl
  | psw => rfl
@[simp] theorem setRq_prog (s : State) (q : Rq) (v : Word) : (s.setRq q v).prog = s.prog := by
  cases q with
  | pair p => cases p <;> rfl
  | psw => rfl
@[simp] theorem setRq_labels (s : State) (q : Rq) (v : Word) : (s.setRq q v).labels = s.labels := by
  cases q with
  | pair p => cases p <;> rfl
  | psw => rfl
@[simp] theorem setRq_cfg (s : State) (q : Rq) (v : Word) : (s.setRq q v).cfg = s.cfg := by
  cases q with
  | pair p => cases p <;> rfl
  | psw => rfl

/-! ### writeOpnd -/

@[simp] theorem writeOpnd_pc (s : State) (x : Opnd) (v : Byte) : (s.writeOpnd x v).pc = s.pc := by
  cases x with
  | reg r => cases r <;> rfl
  | mem => rfl
@[simp] theorem writeOpnd_sp (s : State) (x : Opnd) (v : Byte) : (s.writeOpnd x v).sp = s.sp := by
  cases x with
  | reg r => cases r <;> rfl
  | mem => rfl
@[simp] theorem writeOpnd_flags (s : State) (x : Opnd) (v : Byte) : (s.writeOpnd x v).flags = s.flags := by
  cases x with
  | reg r => cases r <;> rfl
  | mem => rfl
@[simp] theorem writeOpnd_halted (s : State) (x : Opnd) (v : Byte) : (s.writeOpnd x v).halted = s.halted := by
  cases x with
  | reg r => cases r <;> rfl
  | mem => rfl
@[simp] theorem writeOpnd_tStates (s : State) (x : Opnd) (v : Byte) : (s.writeOpnd x v).tStates = s.tStates := by
  cases x with
  | reg r => cases r <;> rfl
  | mem => rfl
@[simp] theorem writeOpnd_prog (s : State) (x : Opnd) (v : Byte) : (s.writeOpnd x v).prog = s.prog := by
  cases x with
  | reg r => cases r <;> rfl
  | mem => rfl
@[simp] theorem writeOpnd_labels (s : State) (x : Opnd) (v : Byte) : (s.writeOpnd x v).labels = s.labels := by
  cases x with
  | reg r => cases r <;> rfl
  | mem => rfl
@[simp] theorem writeOpnd_cfg (s : State) (x : Opnd) (v : Byte) : (s.writeOpnd x v).cfg = s.cfg := by
  cases x with
  | reg r => cases r <;> rfl
  | mem => rfl

/-! ### Reading registers and pairs after a write -/

/-- A register reads what was last written to it and a write leaves the others (00_scope.md R10). -/
theorem reg_setReg (s : State) (r q : Reg) (v : Byte) : (s.setReg r v).reg q = if q = r then v else s.reg q := by
  cases r <;> cases q <;> rfl

@[simp] theorem reg_setReg_same (s : State) (r : Reg) (v : Byte) : (s.setReg r v).reg r = v := by cases r <;> rfl

/-- A pair write writes its two registers and no other (10_state.md R23). -/
theorem reg_setPair (s : State) (p : Pair) (q : Reg) (v : Word) :
    (s.setPair p v).reg q = if q = Pair.hi p then hiByte v else if q = Pair.lo p then loByte v else s.reg q := by
  cases p <;> cases q <;> rfl

/-- Two states with equal registers, and the rest equal, are equal. -/
theorem State.ext_reg {s t : State} (hr : ∀ r, s.reg r = t.reg r) (hpc : s.pc = t.pc) (hsp : s.sp = t.sp)
    (hf : s.flags = t.flags) (hh : s.halted = t.halted) (ht : s.tStates = t.tStates) (hm : s.mem = t.mem)
    (hp : s.prog = t.prog) (hl : s.labels = t.labels) (hc : s.cfg = t.cfg) : s = t := by
  have hA := hr .A; have hB := hr .B; have hC := hr .C; have hD := hr .D
  have hE := hr .E; have hH := hr .H; have hL := hr .L
  cases s; cases t
  simp only [State.reg] at hA hB hC hD hE hH hL
  simp only at hpc hsp hf hh ht hm hp hl hc
  subst hA hB hC hD hE hH hL hpc hsp hf hh ht hm hp hl hc
  rfl

@[simp] theorem store8_reg (s : State) (x : Word) (v : Byte) (r : Reg) : (s.store8 x v).reg r = s.reg r := by cases r <;> rfl
@[simp] theorem store16_reg (s : State) (x v : Word) (r : Reg) : (s.store16 x v).reg r = s.reg r := by cases r <;> rfl
@[simp] theorem push16_reg (s : State) (v : Word) (r : Reg) : (s.push16 v).reg r = s.reg r := by cases r <;> rfl
@[simp] theorem popSp_reg (s : State)  (r : Reg) : (s.popSp).reg r = s.reg r := by cases r <;> rfl
@[simp] theorem enterHalt_reg (s : State)  (r : Reg) : (s.enterHalt).reg r = s.reg r := by cases r <;> rfl
@[simp] theorem setFlags_reg (s : State) (f : Flags) (r : Reg) : (s.setFlags f).reg r = s.reg r := by cases r <;> rfl

end Sys2Proof.Machine
end

