-- ==== Sys2Proof/Laws/Exec.lean ====
section
/-! SUPPORT. Every instruction's meaning as one execute stage, read off its form, and the commit: later proofs go through these
and never take `exec` apart again. -/

namespace Sys2Proof.Machine

/-- The execute stage of a form. -/
def stageOf : Form → Stage
  | .mov d s => opMov d s
  | .mvi d v => opMvi d v
  | .lxi p v => opLxi p v
  | .lda a => opLda a
  | .sta a => opSta a
  | .lhld a => opLhld a
  | .shld a => opShld a
  | .ldax p => opLdax p
  | .stax p => opStax p
  | .xchg => opXchg
  | .alu op s => opAlu op s
  | .alui op v => opAlui op v
  | .inr d => opInr d
  | .dcr d => opDcr d
  | .inx p => opInx p
  | .dcx p => opDcx p
  | .dad p => opDad p
  | .daa => opDaa
  | .rlc => opRlc
  | .rrc => opRrc
  | .ral => opRal
  | .rar => opRar
  | .cma => opCma
  | .cmc => opCmc
  | .stc => opStc
  | .jmp a => opJmp a
  | .jcc c a => opJcc c a
  | .call a => opCall a
  | .ccc c a => opCcc c a
  | .ret => opRet
  | .rcc c => opRcc c
  | .pchl => opPchl
  | .rst n => opRst n
  | .push q => opPush q
  | .pop q => opPop q
  | .xthl => opXthl
  | .sphl => opSphl
  | .nop => opNop
  | .ei => opEi
  | .di => opDi
  | .rim => opRim
  | .sim => opSim
  | .inPort p => opIn p
  | .outPort p => opOut p
  | .hlt => opHlt

/-- Every instruction runs the stage of its form and retires. -/
theorem exec_eq_retire (i : Instr) (s : State) : exec i s = retire i (stageOf i.form) s := by cases i <;> rfl

/-- The state an instruction leaves: its effect's state with PC and the T-state charge committed. -/
def committedState (i : Instr) (s : State) : State :=
  let eff := stageOf i.form (fallThrough i s) s
  { eff.st with
    pc := eff.nextPC
    tStates := addTStates s.cfg.tstateWidth s.tStates (cost s.cfg.tstate i.form eff.taken) }

/-- No instruction can fail (42_step_engine.md R168). -/
theorem exec_next (i : Instr) (s : State) : exec i s = .next (committedState i s) := by
  rw [exec_eq_retire]; rfl

theorem exec_next_iff {i : Instr} {s t : State} : exec i s = .next t ↔ committedState i s = t := by
  rw [exec_next]; simp

/-- An instruction by its form: the form's stage at the fall-through address, and the commit. -/
theorem exec_of_form {i : Instr} {f : Form} (h : i.form = f) (s : State) : exec i s = .next
    { (stageOf f (s.pc + BitVec.ofNat 16 f.length) s).st with
      pc := (stageOf f (s.pc + BitVec.ofNat 16 f.length) s).nextPC
      tStates := addTStates s.cfg.tstateWidth s.tStates
        (cost s.cfg.tstate f (stageOf f (s.pc + BitVec.ofNat 16 f.length) s).taken) } := by
  subst h; exact exec_next i s

/-- The stages by what they can do, so that a claim about all instructions is proved for the three shapes. -/
theorem conditional_cases (c : State → Bool) (st : Stage) (next : Word) (s : State) :
    (c s = true ∧ conditional c st next s = st next s) ∨ (c s = false ∧ conditional c st next s = ⟨s, next, false⟩) := by
  cases h : c s <;> simp [conditional, h]

/-- No instruction writes the program table, the label table or the configuration, no stage writes the T-state counter, and
only HLT writes `halted`. -/
theorem stage_keeps (f : Form) (next : Word) (s : State) :
    (stageOf f next s).st.prog = s.prog ∧ (stageOf f next s).st.labels = s.labels ∧ (stageOf f next s).st.cfg = s.cfg
      ∧ (stageOf f next s).st.tStates = s.tStates ∧ (stageOf f next s).st.halted = (s.halted || decide (f = .hlt)) := by
  cases f with
  | mov d r => cases d <;> simp [stageOf, opMov, sequential, State.writeOpnd]
  | mvi d v => cases d <;> simp [stageOf, opMvi, sequential, State.writeOpnd]
  | inr d => cases d <;> simp [stageOf, opInr, sequential, State.writeOpnd]
  | dcr d => cases d <;> simp [stageOf, opDcr, sequential, State.writeOpnd]
  | lxi p v => cases p <;> simp [stageOf, opLxi, sequential, State.setRp]
  | inx p => cases p <;> simp [stageOf, opInx, sequential, State.setRp]
  | dcx p => cases p <;> simp [stageOf, opDcx, sequential, State.setRp]
  | pop q => cases q <;> simp [stageOf, opPop, sequential, State.setRq]
  | jcc c a => simp only [stageOf, opJcc, conditional]; split <;> simp [opJmp, transfer]
  | ccc c a => simp only [stageOf, opCcc, conditional]; split <;> simp [opCall, transfer]
  | rcc c => simp only [stageOf, opRcc, conditional]; split <;> simp [opRet, transfer]
  | _ => simp [stageOf, opLda, opSta, opLhld, opShld, opLdax, opStax, opXchg, opAlu, opAlui, opDad, opDaa, opRlc, opRrc, opRal,
      opRar, opCma, opCmc, opStc, opJmp, opCall, opRet, opPchl, opRst, opPush, opXthl, opSphl, opNop, opEi, opDi, opRim, opSim,
      opIn, opOut, opHlt, sequential, transfer, State.enterHalt]

/-- Every instruction leaves memory in its canonical form. -/
theorem stage_keeps_memory_wf (f : Form) (next : Word) {s : State} (h : s.mem.wf = true) :
    (stageOf f next s).st.mem.wf = true := by
  cases f with
  | mov d r => cases d <;> simp [stageOf, opMov, sequential, State.writeOpnd, h, write_wf]
  | mvi d v => cases d <;> simp [stageOf, opMvi, sequential, State.writeOpnd, h, write_wf]
  | inr d => cases d <;> simp [stageOf, opInr, sequential, State.writeOpnd, h, write_wf]
  | dcr d => cases d <;> simp [stageOf, opDcr, sequential, State.writeOpnd, h, write_wf]
  | lxi p v => cases p <;> simp [stageOf, opLxi, sequential, State.setRp, h]
  | inx p => cases p <;> simp [stageOf, opInx, sequential, State.setRp, h]
  | dcx p => cases p <;> simp [stageOf, opDcx, sequential, State.setRp, h]
  | pop q => cases q <;> simp [stageOf, opPop, sequential, State.setRq, h]
  | jcc c a => simp only [stageOf, opJcc, conditional]; split <;> simp [opJmp, transfer, h]
  | ccc c a => simp only [stageOf, opCcc, conditional]; split <;> simp [opCall, transfer, h, write_wf, State.push16]
  | rcc c => simp only [stageOf, opRcc, conditional]; split <;> simp [opRet, transfer, h]
  | _ => simp [stageOf, opLda, opSta, opLhld, opShld, opLdax, opStax, opXchg, opAlu, opAlui, opDad, opDaa, opRlc, opRrc, opRal,
      opRar, opCma, opCmc, opStc, opJmp, opCall, opRet, opPchl, opRst, opPush, opXthl, opSphl, opNop, opEi, opDi, opRim, opSim,
      opIn, opOut, opHlt, sequential, transfer, State.enterHalt, State.push16, h, write_wf, writeWord_wf]

end Sys2Proof.Machine
end

