-- ==== Sys2Proof/Laws/Step.lean ====
section
/-! SUPPORT. What a step can do, once: the shapes of a fetch and the inversion of `step` (42_step_engine.md R163 to R173), and the
program table's invariant. -/

namespace Sys2Proof.Machine

/-! ### The fetch -/

theorem fetch_refused_iff (s : State) : fetch s = .refused ↔ s.halted = true := by
  constructor
  · intro h
    by_contra hn
    simp only [fetch, hn] at h
    revert h
    repeat' split
    all_goals simp_all
  · intro h; simp [fetch, h]

theorem fetch_of_record {s : State} {r : Record} (hh : s.halted = false) (hr : findRecord s.prog s.pc = some r) :
    fetch s = .run (recordInstr s r) := by
  simp only [fetch, hh, hr]; rfl

theorem fetch_of_no_record {s : State} (hh : s.halted = false) (hr : findRecord s.prog s.pc = none) :
    fetch s = if s.load8 s.pc = hltOpcode then .rawHalt else .failure := by
  simp [fetch, hh, hr]

/-- A record of the table with PC's address, or none. -/
theorem findRecord_some {prog : List Record} {pc : Word} {r : Record} (h : findRecord prog pc = some r) :
    r ∈ prog ∧ r.address = pc := by
  have h' : prog.find? (fun r => r.address == pc) = some r := h
  exact ⟨List.mem_of_find?_eq_some h', by simpa using List.find?_some h'⟩

theorem findRecord_none {prog : List Record} {pc : Word} :
    findRecord prog pc = none ↔ ∀ r ∈ prog, r.address ≠ pc := by
  simp [findRecord]

/-- What a fetch that runs an instruction found. -/
theorem fetch_run_iff {s : State} {i : Instr} :
    fetch s = .run i ↔ s.halted = false ∧ ∃ r, findRecord s.prog s.pc = some r ∧ recordInstr s r = i := by
  constructor
  · intro h
    cases hh : s.halted
    · refine ⟨rfl, ?_⟩
      cases hr : findRecord s.prog s.pc with
      | none => rw [fetch_of_no_record hh hr] at h; split at h <;> cases h
      | some r =>
        rw [fetch_of_record hh hr] at h
        injection h with h
        exact ⟨r, rfl, h⟩
    · rw [(fetch_refused_iff s).2 hh] at h; cases h
  · rintro ⟨hh, r, hr, hi⟩
    rw [fetch_of_record hh hr, hi]

/-! ### The step -/

/-- A step that gives a next state refused, executed one instruction, or halted on a raw byte. -/
theorem step_next_cases {s t : State} (h : step s = .next t) :
    (s.halted = true ∧ t = s) ∨ (∃ i, fetch s = .run i ∧ t = committedState i s) ∨ (fetch s = .rawHalt ∧ t = s.enterHalt) := by
  unfold step at h
  split at h
  · rename_i hf; injection h with h; exact .inl ⟨(fetch_refused_iff s).1 hf, h.symm⟩
  · rename_i i hf; rw [exec_next] at h; injection h with h; exact .inr (.inl ⟨i, hf, h.symm⟩)
  · rename_i hf; injection h with h; exact .inr (.inr ⟨hf, h.symm⟩)
  · cases h

theorem step_of_run {s : State} {i : Instr} (h : fetch s = .run i) : step s = .next (committedState i s) := by
  simp only [step, h]; exact exec_next i s

/-- A step is a failure exactly when its fetch is. -/
theorem step_fault_iff {s : State} {f : Fault} :
    step s = .fault f ↔ fetch s = .failure ∧ f = .stepFailure := by
  unfold step
  cases fetch s <;> simp [exec_next, raiseStepFailure, eq_comm]

/-- No step is refused. -/
theorem step_ne_refused (s : State) (q : Refusal) : step s ≠ .refused q := by
  unfold step
  split <;> simp [exec_next, raiseStepFailure]

theorem stepReturns_iff (s : State) : stepReturns s = true ↔ ∃ i, fetch s = .run i := by
  unfold stepReturns
  split <;> simp_all

/-! ### The program table -/

/-- Every record of a well-formed table is well formed and starts at or above the cursor, which it does not pass. -/
theorem progWfFrom_mem {c : Config} {prog : List Record} {cur line : Nat} (h : progWfFrom c cur line prog = true)
    {r : Record} (hr : r ∈ prog) : r.wf c = true ∧ cur ≤ r.address.toNat := by
  induction prog generalizing cur line with
  | nil => cases hr
  | cons q rest ih =>
    simp only [progWfFrom, Bool.and_eq_true, decide_eq_true_eq] at h
    rcases List.mem_cons.1 hr with rfl | hr
    · exact ⟨h.1.1.1, by omega⟩
    · have := ih h.2 hr
      exact ⟨this.1, by omega⟩

theorem one_le_len (r : Record) : 1 ≤ r.len := by
  unfold Record.len; have := length_cases r.instr; omega

/-- A well-formed table holds one record for an address at most (10_state.md R36). -/
theorem progWfFrom_unique {c : Config} {prog : List Record} {cur line : Nat} (h : progWfFrom c cur line prog = true)
    {q r : Record} (hq : q ∈ prog) (hr : r ∈ prog) (ha : q.address = r.address) : q = r := by
  induction prog generalizing cur line with
  | nil => cases hq
  | cons p rest ih =>
    simp only [progWfFrom, Bool.and_eq_true, decide_eq_true_eq] at h
    have hlen := one_le_len p
    rcases List.mem_cons.1 hq with hq | hq <;> rcases List.mem_cons.1 hr with hr | hr
    · rw [hq, hr]
    · have := (progWfFrom_mem h.2 hr).2; rw [← ha, hq] at this; omega
    · have := (progWfFrom_mem h.2 hq).2; rw [ha, hr] at this; omega
    · exact ih h.2 hq hr

/-- The key a lookup finds is one of the table's. -/
theorem lookup_mem {mn : Text} {ops : List Text} {k : OpcodeKey} (h : lookup mn ops = some k) : k ∈ opcodeTable := by
  unfold lookup at h
  simp only at h
  split at h
  · rename_i k' hk; injection h with h; subst h; exact List.mem_of_find?_eq_some hk
  · split at h
    · rename_i k' hk; injection h with h; subst h; exact List.mem_of_find?_eq_some hk
    · split at h
      · cases h
      · exact List.mem_of_find?_eq_some h

/-- Every key's mnemonic has the length of the key's instruction (30_encoding.md R72). -/
theorem key_length : ∀ k ∈ opcodeTable, mnemonicLength k.mnemonic = k.instr.length := by decide +kernel

/-- A key's instruction has the operand 0. -/
theorem key_operand : ∀ k ∈ opcodeTable, k.instr.withOperand 0 = k.instr := by decide +kernel

/-- A well-formed record's byte is its instruction's under the setting of P4. -/
theorem record_opcode {c : Config} {r : Record} (h : r.wf c = true) : r.opcode = opcodeByte c r.instr := by
  simp only [Record.wf, Bool.and_eq_true, decide_eq_true_eq] at h
  exact h.1.2

/-! ### Parameter P4 -/

/-- With no change every signature has its default byte (30_encoding.md R76 to R84). -/
theorem opcodeByte_default {c : Config} (h : c.opcode = []) (i : Instr) : opcodeByte c i = i.form.opcode := by
  unfold opcodeByte; split
  · rename_i hi; subst hi; rfl
  · rw [h]; rfl

theorem encodeWith_default {c : Config} (h : c.opcode = []) (i : Instr) : encodeWith c i = encode i := by
  rw [encodeWith, opcodeByte_default h, encode]

theorem encodeWith_length (c : Config) (i : Instr) : (encodeWith c i).length = i.length := by cases i <;> rfl

/-- The byte belongs to the signature: operands do not change it (40_assembler.md R102). -/
@[simp] theorem opcodeByte_withOperand (c : Config) (v : Word) (i : Instr) :
    opcodeByte c (i.withOperand v) = opcodeByte c i := by
  simp [opcodeByte]

theorem changedByte_of_mem (f : Byte → Byte) {l : List Byte} {b : Byte} (h : b ∈ l) :
    changedByte (l.map fun d => (d, f d)) b = f b := by
  induction l with
  | nil => cases h
  | cons d rest ih =>
    rw [List.map_cons, changedByte]
    split
    · rename_i hd; rw [hd]
    · rename_i hd; exact ih ((List.mem_cons.1 h).resolve_left fun e => hd e.symm)

/-- Every map from signatures, named by their default bytes, to bytes is a setting of P4 (assumption log 2). -/
theorem every_opcode_map_is_a_setting (f : Byte → Byte) (c : Config) :
    ∃ changes, ∀ i, i ≠ .hlt → opcodeByte { c with opcode := changes } i = f i.form.opcode :=
  ⟨((List.range 256).map (BitVec.ofNat 8)).map fun d => (d, f d), fun i hi => by
    rw [opcodeByte, if_neg hi]
    exact changedByte_of_mem f (List.mem_map.2 ⟨i.form.opcode.toNat, List.mem_range.2 i.form.opcode.isLt, by simp⟩)⟩

/-! ### Placing an instruction -/

/-- Writing bytes keeps the canonical form. -/
theorem writeBytes_wf {m : Memory} (h : m.wf = true) (a : Word) (bytes : List Byte) : (writeBytes m a bytes).wf = true := by
  induction bytes generalizing m a with
  | nil => exact h
  | cons b rest ih => exact ih (write_wf h _ _) _

theorem withFetchWord_mem_wf {s : State} (h : s.mem.wf = true) (nbits w : Nat) : (s.withFetchWord nbits w).mem.wf = true := by
  simp only [State.withFetchWord, placeWord]
  split
  · exact writeBytes_wf h _ _
  · exact write_wf h _ _

/-- A placed word that decodes is the next step's instruction (assumption log 12). -/
theorem fetch_withFetchWord {s : State} {nbits w : Nat} {i : Instr} (h : decodeTableWord nbits w = some i)
    (hp : s.cfg.operandSource = .record) : fetch (s.withFetchWord nbits w) = .run i := by
  simp [State.withFetchWord, placeWord, h, fetch, findRecord, recordAt, recordInstr, hp]

end Sys2Proof.Machine
end

