-- ==== Sys2Proof/Laws/Assembler.lean ====
section
/-! SUPPORT. What the two passes of the assembler do: they advance alike, the image is the records one after the other, and the
bytes written are those of the records' instructions (40_assembler.md R110 to R135). -/

namespace Sys2Proof.Machine

/-! ### Tokens and keys -/

theorem cutAt_no_sep (sep : Char → Bool) (t piece : Text) (h : piece ∈ cutAt sep t) : ∀ c ∈ piece, sep c = false := by
  induction t generalizing piece with
  | nil => simp [cutAt] at h; subst h; simp
  | cons c rest ih =>
    simp only [cutAt] at h
    split at h
    · rcases List.mem_cons.1 h with rfl | h
      · simp
      · exact ih piece h
    · rename_i hc
      split at h
      · simp only [List.mem_singleton] at h; subst h
        intro d hd; simp only [List.mem_singleton] at hd; subst hd; simpa using hc
      · rename_i p more hp
        rcases List.mem_cons.1 h with rfl | h
        · intro d hd
          rcases List.mem_cons.1 hd with rfl | hd
          · simpa using hc
          · exact ih p (by rw [hp]; exact List.mem_cons_self) d hd
        · exact ih piece (by rw [hp]; exact List.mem_cons_of_mem _ h)

theorem toUpper_ne_space {c : Char} (h : c ≠ ' ') : c.toUpper ≠ ' ' := by
  intro hu
  unfold Char.toUpper at hu
  split at hu
  · rename_i hc
    have h3 := congrArg (fun d : Char => d.val.toNat) hu
    have h1 : 97 ≤ c.val.toNat := hc.1
    have h2 : c.val.toNat ≤ 122 := hc.2
    have h4 : (c.val + 4294967264).toNat = 32 := h3
    rw [UInt32.toNat_add] at h4
    have h5 : (4294967264 : UInt32).toNat = 4294967264 := rfl
    omega
  · exact h hu

/-- A line's mnemonic has no space in it. -/
theorem lineTokens_no_space (rest : Text) : ∀ c ∈ (lineTokens rest).1, c ≠ ' ' := by
  unfold lineTokens
  split
  · simp
  · rename_i mn ops h
    intro c hc
    have hm : mn ∈ tokens rest := by rw [h]; exact List.mem_cons_self
    simp only [tokens, List.mem_filter] at hm
    simp only [upper, List.mem_map] at hc
    obtain ⟨d, hd, rfl⟩ := hc
    refine toUpper_ne_space fun hsp => ?_
    have := cutAt_no_sep _ _ _ hm.1 d hd
    subst hsp
    simp [isBlank] at this

theorem takeWhile_signature {mn : Text} (h : ∀ c ∈ mn, c ≠ ' ') (ops : List Text) :
    (signature mn ops).takeWhile (· ≠ ' ') = mn := by
  have hall : ∀ c ∈ mn, (decide (c ≠ ' ')) = true := by simpa using h
  cases ops with
  | nil => simpa [signature] using List.takeWhile_eq_self_iff.2 hall
  | cons o rest =>
    simp only [signature]
    rw [List.takeWhile_append_of_pos hall]; simp

theorem key_mnemonic_no_space : ∀ k ∈ opcodeTable, ∀ c ∈ k.mnemonic, c ≠ ' ' := by
  have h : (opcodeTable.all fun k => k.mnemonic.all fun c => c != ' ') = true := by decide +kernel
  simpa using h

/-- The key a line's tokens look up to has the line's mnemonic (40_assembler.md R102, R103). -/
theorem lookup_mnemonic {mn : Text} {ops : List Text} {k : OpcodeKey} (hmn : ∀ c ∈ mn, c ≠ ' ')
    (h : lookup mn ops = some k) : k.mnemonic = mn := by
  have hk := lookup_mem h
  have key : ∀ ops', k.text = signature mn ops' → k.mnemonic = mn := by
    intro ops' ht
    have := congrArg (List.takeWhile (· ≠ ' ')) ht
    rwa [OpcodeKey.text, takeWhile_signature (key_mnemonic_no_space k hk), takeWhile_signature hmn] at this
  unfold lookup at h
  simp only at h
  have found : ∀ t k', findKey t = some k' → k'.text = t := fun t k' hf => by simpa using List.find?_some hf
  split at h
  · rename_i k' hf; injection h with h; subst h; exact key _ (found _ _ hf)
  · split at h
    · rename_i k' hf; injection h with h; subst h; exact key [] (found _ _ hf)
    · split at h
      · cases h
      · exact key [_] (found _ _ h)

/-- A line as `parseLine` makes it: its mnemonic has no space. -/
def Line.clean (ln : Line) : Prop := ∀ mn ops, ln.content = some (mn, ops) → ∀ c ∈ mn, c ≠ ' '

theorem parseLine_clean (n : Nat) (raw : Text) : (parseLine n raw).clean := by
  intro mn ops h
  simp only [parseLine] at h
  split at h
  · cases h
  · injection h with h
    have := lineTokens_no_space (splitLabel (stripLine raw)).2
    rw [h] at this; exact this

/-- What a recognised line found. -/
theorem recognised_some {ln : Line} {k : OpcodeKey} {mn : Text} {ops : List Text} (h : ln.recognised = some (k, mn, ops)) :
    ln.content = some (mn, ops) ∧ lookup mn ops = some k := by
  unfold Line.recognised at h
  split at h
  · cases h
  · rename_i mn' ops' hc
    simp only [Option.map_eq_some_iff, Prod.mk.injEq] at h
    obtain ⟨k', hk, rfl, rfl, rfl⟩ := h
    exact ⟨hc, hk⟩

/-! ### The passes -/

/-- The bytes of all lines' instructions. -/
def totalLength (lns : List Line) : Nat := (lns.map Line.length).sum

/-- Pass 1 advances by the lengths of the lines. -/
theorem pass1_cursor (cur : Nat) (labels : LabelTable) (lns : List Line) :
    (pass1 cur labels lns).2 = cur + totalLength lns := by
  induction lns generalizing cur labels with
  | nil => simp [pass1, totalLength]
  | cons ln rest ih => rw [pass1, ih, totalLength, totalLength, List.map_cons, List.sum_cons]; omega

/-- Pass 2 advances by the length of each line. -/
theorem pass2Line_cur (c : Config) (num : Numerals) (labels : LabelTable) (img : Image) (ln : Line) :
    (pass2Line c num labels img ln).cur = img.cur + ln.length := by
  unfold pass2Line Line.length
  split
  · rfl
  · split <;> rfl

theorem pass2_cons (c : Config) (num : Numerals) (labels : LabelTable) (img : Image) (ln : Line) (rest : List Line) :
    pass2 c num labels img (ln :: rest) = pass2 c num labels (pass2Line c num labels img ln) rest := rfl

/-- Pass 2 advances by the lengths of the lines, as pass 1 does (40_assembler.md R135). -/
theorem pass2_cursor (c : Config) (num : Numerals) (labels : LabelTable) (img : Image) (lns : List Line) :
    (pass2 c num labels img lns).cur = img.cur + totalLength lns := by
  induction lns generalizing img with
  | nil => simp [pass2, totalLength]
  | cons ln rest ih => rw [pass2_cons, ih, pass2Line_cur, totalLength, totalLength, List.map_cons, List.sum_cons]; omega

/-- The record of a line at a cursor, if it makes one (40_assembler.md R128). -/
def lineRecord (c : Config) (num : Numerals) (labels : LabelTable) (cur : Nat) (ln : Line) : Option Record :=
  ln.recognised.map fun e =>
    ⟨BitVec.ofNat 16 cur, e.2.1, e.2.2, opcodeByte c e.1.instr,
      e.1.instr.withOperand (cutValue (mnemonicLength e.2.1) (operandNat num labels e.1.shape e.2.2)), ln.number⟩

/-- The records of lines from a cursor up. -/
def lineRecords (c : Config) (num : Numerals) (labels : LabelTable) : Nat → List Line → List Record
  | _, [] => []
  | cur, ln :: rest => (lineRecord c num labels cur ln).toList ++ lineRecords c num labels (cur + ln.length) rest

theorem pass2_prog (c : Config) (num : Numerals) (labels : LabelTable) (img : Image) (lns : List Line) :
    (pass2 c num labels img lns).prog = img.prog ++ lineRecords c num labels img.cur lns := by
  induction lns generalizing img with
  | nil => simp [pass2, lineRecords]
  | cons ln rest ih =>
    rw [pass2_cons, ih, pass2Line_cur, lineRecords, ← List.append_assoc]
    congr 1
    unfold pass2Line lineRecord
    split
    · rename_i k mn ops hr; rw [hr]; rfl
    · rename_i hr; rw [hr]; split <;> simp

/-! ### The program table -/

theorem parseLines_clean (n : Nat) (raws : List Text) : ∀ ln ∈ parseLines n raws, ln.clean := by
  induction raws generalizing n with
  | nil => simp [parseLines]
  | cons raw rest ih =>
    intro ln h
    rcases List.mem_cons.1 h with rfl | h
    · exact parseLine_clean n raw
    · exact ih (n + 1) ln h

theorem sourceLines_clean (t : Text) : ∀ ln ∈ sourceLines t, ln.clean := parseLines_clean 1 _

/-- Lines numbered upwards, each after `n`. -/
def numberedAfter : Nat → List Line → Prop
  | _, [] => True
  | n, ln :: rest => n < ln.number ∧ numberedAfter ln.number rest

theorem parseLines_numbered (n : Nat) (raws : List Text) : numberedAfter n (parseLines (n + 1) raws) := by
  induction raws generalizing n with
  | nil => trivial
  | cons raw rest ih => exact ⟨Nat.lt_succ_self n, ih (n + 1)⟩

theorem numberedAfter_mono {m n : Nat} {lns : List Line} (h : numberedAfter n lns) (hmn : m ≤ n) : numberedAfter m lns := by
  cases lns with
  | nil => trivial
  | cons ln rest => exact ⟨by have := h.1; omega, h.2⟩

/-- The record of a clean line is well formed, and as long as its line. -/
theorem lineRecord_wf {c : Config} {num : Numerals} {labels : LabelTable} {cur : Nat} {ln : Line} {r : Record}
    (hc : ln.clean) (hn : 1 ≤ ln.number) (h : lineRecord c num labels cur ln = some r) :
    r.wf c = true ∧ r.len = ln.length ∧ r.sourceLine = ln.number ∧ r.address = BitVec.ofNat 16 cur := by
  simp only [lineRecord, Option.map_eq_some_iff] at h
  obtain ⟨⟨k, mn, ops⟩, hr, rfl⟩ := h
  obtain ⟨hcon, hl⟩ := recognised_some hr
  have hm := lookup_mnemonic (hc mn ops hcon) hl
  have hlen : mnemonicLength mn = k.instr.length := by rw [← hm]; exact key_length k (lookup_mem hl)
  refine ⟨?_, ?_, rfl, rfl⟩
  · simp only [Record.wf, hl, Record.val, withOperand_operand, opcodeByte_withOperand, Bool.and_eq_true, decide_eq_true_eq]
    exact ⟨⟨trivial, trivial⟩, hn⟩
  · simp only [Record.len, withOperand_length, Line.length, hr, hlen]

/-- The records of numbered, clean lines that fit form a well-formed table (10_state.md R36). -/
theorem lineRecords_wf (c : Config) (num : Numerals) (labels : LabelTable) (lns : List Line) (cur line : Nat)
    (hc : ∀ ln ∈ lns, ln.clean) (hn : numberedAfter line lns) (hfit : cur + totalLength lns ≤ 0x10000) :
    progWfFrom c cur line (lineRecords c num labels cur lns) = true := by
  induction lns generalizing cur line with
  | nil => simpa [lineRecords, progWfFrom, totalLength] using hfit
  | cons ln rest ih =>
    have hfit' : cur + (ln.length + totalLength rest) ≤ 0x10000 := by
      simpa [totalLength] using hfit
    have hrest := ih (cur + ln.length) ln.number (fun q hq => hc q (List.mem_cons_of_mem _ hq)) hn.2 (by omega)
    have hrest' := ih (cur + ln.length) line (fun q hq => hc q (List.mem_cons_of_mem _ hq))
      (numberedAfter_mono hn.2 (by have := hn.1; omega)) (by omega)
    rw [lineRecords]
    cases hr : lineRecord c num labels cur ln with
    | none =>
      have : ln.length = 0 := by
        unfold lineRecord at hr; unfold Line.length
        cases he : ln.recognised <;> simp_all
      simpa [this] using hrest'
    | some r =>
      have hw := lineRecord_wf (hc ln List.mem_cons_self) (by have := hn.1; omega) hr
      have hpos := one_le_len r
      simp only [Option.toList_some, List.cons_append, List.nil_append, progWfFrom, Bool.and_eq_true, decide_eq_true_eq]
      rw [hw.2.1, hw.2.2.1]
      refine ⟨⟨⟨hw.1, ?_⟩, hn.1⟩, hrest⟩
      rw [hw.2.2.2, BitVec.toNat_ofNat]
      rw [hw.2.1] at hpos; omega

/-! ### The label table -/

theorem labelAddress_setLabel (labels : LabelTable) (n m : Text) (a : Word) :
    labelAddress (setLabel labels n a) m = if m = n then some a else labelAddress labels m := by
  induction labels with
  | nil =>
    by_cases h : m = n
    · subst h; simp [setLabel, labelAddress]
    · have h' : ¬ n = m := fun e => h e.symm
      simp [setLabel, labelAddress, h, h']
  | cons e rest ih =>
    obtain ⟨k, w⟩ := e
    simp only [setLabel]
    split
    · rename_i hk; subst hk
      by_cases h : m = k
      · subst h; simp [labelAddress]
      · have h' : ¬ k = m := fun e => h e.symm
        simp [labelAddress, h, h']
    · rename_i hk
      by_cases h : k = m
      · subst h; simp [labelAddress, hk]
      · simp only [labelAddress, h, if_false, ih]

theorem setLabel_wf {labels : LabelTable} (h : labelsWf labels = true) (n : Text) (a : Word) :
    labelsWf (setLabel labels n a) = true := by
  induction labels with
  | nil => rfl
  | cons e rest ih =>
    obtain ⟨k, w⟩ := e
    simp only [labelsWf, Bool.and_eq_true] at h
    simp only [setLabel]
    split
    · simpa only [labelsWf, Bool.and_eq_true] using h
    · rename_i hk
      simp only [labelsWf, Bool.and_eq_true, labelAddress_setLabel, hk, if_false]
      exact ⟨h.1, ih h.2⟩

theorem pass1_labels_wf (cur : Nat) {labels : LabelTable} (h : labelsWf labels = true) (lns : List Line) :
    labelsWf (pass1 cur labels lns).1 = true := by
  induction lns generalizing cur labels with
  | nil => exact h
  | cons ln rest ih =>
    refine ih _ ?_
    unfold recordLabel
    split
    · exact h
    · exact setLabel_wf h _ _

/-- Lines that do not define a label leave its address. -/
theorem pass1_keeps_label (cur : Nat) (labels : LabelTable) (lns : List Line) (n : Text) (h : ∀ ln ∈ lns, ln.label ≠ n) :
    labelAddress (pass1 cur labels lns).1 n = labelAddress labels n := by
  induction lns generalizing cur labels with
  | nil => rfl
  | cons ln rest ih =>
    rw [pass1, ih _ _ fun q hq => h q (List.mem_cons_of_mem _ hq)]
    have := h ln List.mem_cons_self
    unfold recordLabel
    split
    · rfl
    · rw [labelAddress_setLabel, if_neg (Ne.symm this)]

theorem pass1_append (cur : Nat) (labels : LabelTable) (xs ys : List Line) :
    pass1 cur labels (xs ++ ys) = pass1 (pass1 cur labels xs).2 (pass1 cur labels xs).1 ys := by
  induction xs generalizing cur labels with
  | nil => rfl
  | cons x rest ih => exact ih _ _

/-! ### The bytes of the image -/

/-- The bytes an instruction's emission writes. -/
def emittedBytes (len : Nat) (op : Byte) (v : Nat) : List Byte :=
  op :: match len with
    | 2 => [BitVec.ofNat 8 v]
    | 3 => [BitVec.ofNat 8 v, BitVec.ofNat 8 (v / 256)]
    | _ => []

theorem emitBytes_wf {m : Memory} (h : m.wf = true) (cur len : Nat) (op : Byte) (v : Nat) :
    (emitBytes m cur len op v).wf = true := by
  unfold emitBytes
  split
  · exact write_wf (write_wf h _ _) _ _
  · exact write_wf (write_wf (write_wf h _ _) _ _) _ _
  · exact write_wf h _ _

/-- An emission writes the instruction's bytes at the cursor and nothing else. -/
theorem read_emitBytes {cur len : Nat} (hlen : len = 1 ∨ len = 2 ∨ len = 3) (hfit : cur + len ≤ 0x10000) (m : Memory)
    (op : Byte) (v : Nat) (a : Word) :
    (emitBytes m cur len op v).read a
      = if cur ≤ a.toNat then ((emittedBytes len op v)[a.toNat - cur]?).getD (m.read a) else m.read a := by
  have key : ∀ n, n < 0x10000 → (a = BitVec.ofNat 16 n ↔ a.toNat = n) := fun n hn =>
    ⟨fun h => by rw [h, BitVec.toNat_ofNat]; omega,
      fun h => BitVec.eq_of_toNat_eq (by rw [BitVec.toNat_ofNat]; omega)⟩
  rcases hlen with rfl | rfl | rfl
  · simp only [emitBytes, emittedBytes, read_write, key cur (by omega)]
    split
    · rename_i h; simp [h]
    · split
      · rw [List.getElem?_eq_none (by simp; omega)]; rfl
      · rfl
  · simp only [emitBytes, emittedBytes, read_write, key cur (by omega), key (cur + 1) (by omega)]
    split
    · rename_i h; simp [h]
    · split
      · rename_i h; simp [h]
      · split
        · rw [List.getElem?_eq_none (by simp; omega)]; rfl
        · rfl
  · simp only [emitBytes, emittedBytes, read_write, key cur (by omega), key (cur + 1) (by omega), key (cur + 2) (by omega)]
    split
    · rename_i h; simp [h]
    · split
      · rename_i h; simp [h]
      · split
        · rename_i h; simp [h]
        · split
          · rw [List.getElem?_eq_none (by simp; omega)]; rfl
          · rfl

/-- The bytes emitted for an instruction's signature and a value are the encoding of the instruction with the value cut to
its operand (40_assembler.md R119, R126). -/
theorem encodeWith_eq_emittedBytes (c : Config) (i : Instr) (v : Nat) :
    encodeWith c (i.withOperand (cutValue i.length v)) = emittedBytes i.length (opcodeByte c i) v := by
  have h1 : loByte (BitVec.ofNat 16 v) = BitVec.ofNat 8 v := by
    apply BitVec.eq_of_toNat_eq; rw [loByte_toNat]; simp only [BitVec.toNat_ofNat]; omega
  have h2 : hiByte (BitVec.ofNat 16 v) = BitVec.ofNat 8 (v / 256) := by
    apply BitVec.eq_of_toNat_eq; rw [hiByte_toNat]; simp only [BitVec.toNat_ofNat]; omega
  have h3 : loByte (BitVec.ofNat 16 (v % 256)) = BitVec.ofNat 8 v := by
    apply BitVec.eq_of_toNat_eq; rw [loByte_toNat]; simp only [BitVec.toNat_ofNat]; omega
  rw [encodeWith, opcodeByte_withOperand]
  unfold emittedBytes
  congr 1
  cases i <;> first
    | rfl
    | simp only [Instr.length, Instr.form, Form.length, cutValue, Instr.withOperand, Form.operandBytes, wordBytes, h1, h2, h3]

/-- The value cut to an instruction's operand is the instruction's operand value (40_assembler.md R126, 10_state.md R37). -/
theorem operand_withOperand_cutValue (i : Instr) (v : Nat) :
    (i.withOperand (cutValue i.length v)).operand = cutValue i.length v := by
  cases i <;> simp only [Instr.length, Instr.form, Form.length, cutValue, Instr.withOperand, Instr.operand, Form.operandBytes,
    wordBytes, mkWord_hiByte_loByte]
  all_goals
    apply BitVec.eq_of_toNat_eq
    rw [mkWord_toNat, loByte_toNat]
    simp only [BitVec.toNat_ofNat, show (0 : Byte).toNat = 0 from rfl]
    omega

theorem pass2Line_wf {img : Image} (h : img.mem.wf = true) (c : Config) (num : Numerals) (labels : LabelTable) (ln : Line) :
    (pass2Line c num labels img ln).mem.wf = true := by
  unfold pass2Line
  split
  · exact emitBytes_wf h _ _ _ _
  · split <;> exact h

theorem pass2_wf {img : Image} (h : img.mem.wf = true) (c : Config) (num : Numerals) (labels : LabelTable) (lns : List Line) :
    (pass2 c num labels img lns).mem.wf = true := by
  induction lns generalizing img with
  | nil => exact h
  | cons ln rest ih => exact ih (pass2Line_wf h c num labels ln)

/-- A clean line's step of pass 2 writes the bytes of its record's instruction, at the cursor. -/
theorem read_pass2Line {img : Image} {ln : Line} (hc : ln.clean) (hfit : img.cur + ln.length ≤ 0x10000) (c : Config)
    (num : Numerals) (labels : LabelTable) (a : Word) :
    (pass2Line c num labels img ln).mem.read a
      = match lineRecord c num labels img.cur ln with
        | none => img.mem.read a
        | some r =>
          if img.cur ≤ a.toNat then ((encodeWith c r.instr)[a.toNat - img.cur]?).getD (img.mem.read a)
          else img.mem.read a := by
  cases hr : ln.recognised with
  | none =>
    have h1 : lineRecord c num labels img.cur ln = none := by simp [lineRecord, hr]
    simp only [pass2Line, hr, h1]
    split <;> rfl
  | some e =>
    obtain ⟨k, mn, ops⟩ := e
    obtain ⟨hcon, hl⟩ := recognised_some hr
    have hm := lookup_mnemonic (hc mn ops hcon) hl
    have hlen : mnemonicLength mn = k.instr.length := by rw [← hm]; exact key_length k (lookup_mem hl)
    have hlen' : ln.length = k.instr.length := by simp only [Line.length, hr, hlen]
    simp only [pass2Line, hr, lineRecord, Option.map_some, emit, hlen]
    rw [read_emitBytes (length_cases _) (by omega), encodeWith_eq_emittedBytes]

/-! ### The operation -/

theorem sourceLines_numbered (t : Text) : numberedAfter 0 (sourceLines t) := parseLines_numbered 0 _

/-- What an accepted `assemble` did: the `error` policy's empty result, or both passes over an image that fits. -/
theorem assembleWith_cases {num : Numerals} {txt : Text} {s t : State} {rep : Report}
    (h : assembleWith num txt s = .next (t, rep)) :
    (s.cfg.unresolvedLine = .error ∧ t = s.clearForAssembly ∧
        rep = mkReport false 0 (unrecognisedLines (sourceLines txt)) [])
      ∨ (loadAddress + totalLength (sourceLines txt) ≤ 0x10000 ∧ (t, rep) = assembleLines num (sourceLines txt) s) := by
  unfold assembleWith at h
  simp only at h
  split at h
  · cases h
  · split at h
    · rename_i h1
      injection h with h
      injection h with h2 h3
      exact .inl ⟨h1.1, h2.symm, h3.symm⟩
    · rename_i h0 _
      injection h with h
      rw [pass1_cursor] at h0
      exact .inr ⟨by omega, h.symm⟩

/-! ### Parameter P9 -/

theorem readText_of_mem (grammar f : Text → Option Nat) {l : List Text} {t : Text} (h : t ∈ l) :
    readText (l.map fun d => (d, f d)) grammar t = f t := by
  induction l with
  | nil => cases h
  | cons d rest ih =>
    rw [List.map_cons, readText]
    split
    · rename_i hd; rw [hd]
    · rename_i hd; exact ih ((List.mem_cons.1 h).resolve_left fun e => hd e.symm)

/-- With no text listed the strict grammar reads every text (40_assembler.md R124). -/
theorem configuredNumerals_default : configuredNumerals ⟨[], []⟩ = strictNumerals := rfl

/-- The operand tokens of a line. -/
def Line.operands (ln : Line) : List Text := (ln.content.map Prod.snd).getD []

/-- The value of an operand depends on the readings of the line's own tokens only (40_assembler.md R120, R121). -/
theorem operandNumber_congr {n m : Numerals} {ops : List Text}
    (h : ∀ t ∈ ops, n.hex t.dropLast = m.hex t.dropLast ∧ n.dec t = m.dec t) (labels : LabelTable) (shape : KeyShape) :
    operandNumber n labels shape ops = operandNumber m labels shape ops := by
  unfold operandNumber
  cases ht : valueToken shape ops with
  | none => rfl
  | some t =>
    have hmem : t ∈ ops := by
      cases shape <;> simp only [valueToken] at ht
      all_goals first
        | cases ht
        | exact List.mem_of_getElem? ht
    simp only [Option.bind_some, tokenValue, h t hmem]

theorem pass2Line_congr {n m : Numerals} {ln : Line}
    (h : ∀ t ∈ ln.operands, n.hex t.dropLast = m.hex t.dropLast ∧ n.dec t = m.dec t) (c : Config) (labels : LabelTable)
    (img : Image) : pass2Line c n labels img ln = pass2Line c m labels img ln := by
  unfold pass2Line
  split
  · rename_i k mn ops hr
    have hops : ln.operands = ops := by simp [Line.operands, (recognised_some hr).1]
    rw [hops] at h
    have hmal : isMalformed n labels k.shape ops = isMalformed m labels k.shape ops := by
      unfold isMalformed; rw [operandNumber_congr h]
    simp only [emit, operandNat, operandNumber_congr h, hmal]
  · rfl

theorem pass2_congr {n m : Numerals} {lns : List Line}
    (h : ∀ ln ∈ lns, ∀ t ∈ ln.operands, n.hex t.dropLast = m.hex t.dropLast ∧ n.dec t = m.dec t) (c : Config)
    (labels : LabelTable) (img : Image) : pass2 c n labels img lns = pass2 c m labels img lns := by
  induction lns generalizing img with
  | nil => rfl
  | cons ln rest ih =>
    rw [pass2_cons, pass2_cons, pass2Line_congr (h ln List.mem_cons_self), ih fun q hq => h q (List.mem_cons_of_mem _ hq)]

/-- The texts of an assembly that a reading of numerals is asked for. -/
def numeralTexts (lns : List Line) : List Text := lns.flatMap fun ln => ln.operands ++ ln.operands.map List.dropLast

/-- Whatever the reading of numerals, some setting of P9 assembles the text to the same result: a finite list of readings
leaves out no value of P9 (assumption log 6). -/
theorem every_reading_is_a_setting (num : Numerals) (txt : Text) (s : State) :
    ∃ n, assembleWith num txt s = assembleWith (configuredNumerals n) txt s := by
  refine ⟨⟨(numeralTexts (sourceLines txt)).map fun t => (t, num.hex t),
    (numeralTexts (sourceLines txt)).map fun t => (t, num.dec t)⟩, ?_⟩
  unfold assembleWith assembleLines
  simp only
  rw [pass2_congr (n := num)]
  intro ln hln t ht
  have hmem : t ∈ numeralTexts (sourceLines txt) ∧ t.dropLast ∈ numeralTexts (sourceLines txt) := by
    simp only [numeralTexts, List.mem_flatMap, List.mem_append, List.mem_map]
    exact ⟨⟨ln, hln, .inl ht⟩, ln, hln, .inr ⟨t, ht, rfl⟩⟩
  exact ⟨(readText_of_mem _ _ hmem.2).symm, (readText_of_mem _ _ hmem.1).symm⟩

end Sys2Proof.Machine
end

