-- ==== Sys2Proof/Laws/Flags.lean ====
section
/-! SUPPORT. What the ALU functions compute, as numbers (41_alu_flags.md R141 to R149): one lemma for each function, so that no
later proof unfolds one. -/

namespace Sys2Proof.Machine

theorem byte_msb_eq (v : Byte) : v.getLsbD 7 = decide (128 ≤ v.toNat) := by
  have : v.getLsbD 7 = v.toNat.testBit 7 := rfl
  rw [this, Nat.testBit_eq_decide_div_mod_eq]
  have := v.isLt
  congr 1
  exact propext ⟨fun h => by omega, fun h => by omega⟩

theorem byte_eq_zero_iff (v : Byte) : (v = 0) ↔ v.toNat = 0 :=
  ⟨fun h => by rw [h]; rfl, fun h => BitVec.eq_of_toNat_eq h⟩

theorem lowNibble_eq (v : Byte) : lowNibble v = v.toNat % 16 := by
  have : (v &&& 0xF).toNat = v.toNat &&& (2 ^ 4 - 1) := by simp
  rw [lowNibble, this, Nat.and_two_pow_sub_one_eq_mod]

theorem lowNibble_not (v : Byte) : lowNibble (~~~v) = 15 - v.toNat % 16 := by
  rw [lowNibble_eq, BitVec.toNat_not]
  have := v.isLt; omega

theorem acAdd_eq (a b : Byte) (cin : Bool) : acAdd a b cin = decide (15 < a.toNat % 16 + b.toNat % 16 + cin.toNat) := by
  simp [acAdd, lowNibble_eq]

/-- The three readings of P8 as comparisons of low nibbles (41_alu_flags.md R146). -/
theorem acSubtract_eq (k : AcSub) (a b : Byte) (bin : Bool) : acSubtract k a b bin =
    match k with
    | .twosComplement => decide (b.toNat % 16 + bin.toNat ≤ a.toNat % 16)
    | .cleared => false
    | .borrow => decide (a.toNat % 16 < b.toNat % 16 + bin.toNat) := by
  cases k
  · simp only [acSubtract]
    rw [lowNibble_not, lowNibble_eq]
    have : bin.toNat ≤ 1 := Bool.toNat_le bin
    exact decide_eq_decide.2 ⟨fun h => by omega, fun h => by omega⟩
  · rfl
  · simp only [acSubtract, lowNibble_eq]

/-- The flags `zsp` leaves, as comparisons of the result. -/
theorem zsp_eq (res : Byte) (f : Flags) : zsp res f =
    ⟨decide (128 ≤ res.toNat), decide (res.toNat = 0), f.ac, parity8 res, f.cy⟩ := by
  simp only [zsp, byte_msb_eq, byte_eq_zero_iff]

theorem narrow8_natCast (n : Nat) : narrow8 n = BitVec.ofNat 8 n := BitVec.ofInt_natCast 8 n

theorem add8_eq (a b : Byte) (cin : Bool) (f : Flags) : add8 a b cin f =
    (BitVec.ofNat 8 (a.toNat + b.toNat + cin.toNat),
      zsp (BitVec.ofNat 8 (a.toNat + b.toNat + cin.toNat))
        ⟨f.s, f.z, decide (15 < a.toNat % 16 + b.toNat % 16 + cin.toNat), f.p,
          decide (255 < a.toNat + b.toNat + cin.toNat)⟩) := by
  have h : ((a.toNat : Int) + b.toNat + cin.toNat) = ((a.toNat + b.toNat + cin.toNat : Nat) : Int) := by simp
  have hc : carryOf ((a.toNat + b.toNat + cin.toNat : Nat) : Int) = decide (255 < a.toNat + b.toNat + cin.toNat) := by
    simp only [carryOf]; exact decide_eq_decide.2 ⟨fun h => by omega, fun h => by omega⟩
  simp only [add8, h, narrow8_natCast, hc, acAdd_eq]

theorem sub8_eq (k : AcSub) (a b : Byte) (bin : Bool) (f : Flags) : sub8 k a b bin f =
    (BitVec.ofNat 8 (256 + a.toNat - b.toNat - bin.toNat),
      zsp (BitVec.ofNat 8 (256 + a.toNat - b.toNat - bin.toNat))
        ⟨f.s, f.z, acSubtract k a b bin, f.p, decide (a.toNat < b.toNat + bin.toNat)⟩) := by
  have ha := a.isLt
  have hb := b.isLt
  have hbin : bin.toNat ≤ 1 := Bool.toNat_le bin
  have hr : narrow8 ((a.toNat : Int) - b.toNat - bin.toNat) = BitVec.ofNat 8 (256 + a.toNat - b.toNat - bin.toNat) := by
    apply BitVec.eq_of_toNat_eq
    rw [narrow8_toNat, BitVec.toNat_ofNat]; omega
  have hc : carryOf ((a.toNat : Int) - b.toNat - bin.toNat) = decide (a.toNat < b.toNat + bin.toNat) := by
    simp only [carryOf]; exact decide_eq_decide.2 ⟨fun h => by omega, fun h => by omega⟩
  simp only [sub8, hr, hc]

theorem inc8_eq (v : Byte) (f : Flags) : inc8 v f =
    (BitVec.ofNat 8 (v.toNat + 1), zsp (BitVec.ofNat 8 (v.toNat + 1)) ⟨f.s, f.z, decide (v.toNat % 16 = 15), f.p, f.cy⟩) := by
  have h : ((v.toNat : Int) + 1) = ((v.toNat + 1 : Nat) : Int) := by simp
  have hac : acAdd v 1 false = decide (v.toNat % 16 = 15) := by
    rw [acAdd_eq]
    exact decide_eq_decide.2 ⟨fun h => by simp at h; omega, fun h => by simp; omega⟩
  simp only [inc8, h, narrow8_natCast, hac]

theorem dec8_eq (k : AcSub) (v : Byte) (f : Flags) : dec8 k v f =
    (BitVec.ofNat 8 (v.toNat + 255), zsp (BitVec.ofNat 8 (v.toNat + 255)) ⟨f.s, f.z, acSubtract k v 1 false, f.p, f.cy⟩) := by
  have hr : narrow8 ((v.toNat : Int) - 1) = BitVec.ofNat 8 (v.toNat + 255) := by
    apply BitVec.eq_of_toNat_eq
    rw [narrow8_toNat, BitVec.toNat_ofNat]; have := v.isLt; omega
  simp only [dec8, hr]

theorem dadResult_eq (x y : Word) : dadResult x y = (x + y, decide (65535 < x.toNat + y.toNat)) := by
  have h : ((x.toNat : Int) + y.toNat) = ((x.toNat + y.toNat : Nat) : Int) := by simp
  have hr : narrow16 ((x.toNat : Int) + y.toNat) = x + y := by
    apply BitVec.eq_of_toNat_eq
    rw [narrow16_toNat, BitVec.toNat_add]; omega
  simp only [dadResult, hr]
  congr 1
  exact decide_eq_decide.2 ⟨fun h => by omega, fun h => by omega⟩

/-- DAA as one addition of a correction below 256 (44_arithmetic.md R235). -/
theorem daaResult_eq (a : Byte) (f : Flags) : daaResult a f =
    let corr := (if daaLow a f then 6 else 0) + (if daaHigh a f then 96 else 0)
    (BitVec.ofNat 8 (a.toNat + corr),
      zsp (BitVec.ofNat 8 (a.toNat + corr))
        ⟨f.s, f.z, decide (15 < a.toNat % 16 + corr % 16), f.p, f.cy || daaHigh a f⟩) := by
  have hcorr : (daaCorrection a f).toNat = (if daaLow a f then 6 else 0) + (if daaHigh a f then 96 else 0) := by
    cases h1 : daaLow a f <;> cases h2 : daaHigh a f <;> simp [daaCorrection, h1, h2, narrow8_toNat]
  have hr : narrow8 ((a.toNat : Int) + (daaCorrection a f).toNat) = BitVec.ofNat 8 (a.toNat + (daaCorrection a f).toNat) :=
    narrow8_natCast _
  simp only [daaResult, acAdd_eq, hr, Bool.toNat_false, Nat.add_zero]
  rw [hcorr]

/-- Every byte, for facts decided byte by byte. -/
theorem forall_byte {p : Byte → Prop} (h : ∀ n : Fin 256, p (BitVec.ofFin n)) (v : Byte) : p v := h v.toFin

theorem rlcResult_eq (a : Byte) : rlcResult a = (a.rotateLeft 1, a.msb) :=
  forall_byte (p := fun a => rlcResult a = (a.rotateLeft 1, a.msb)) (by decide +kernel) a

theorem rrcResult_eq (a : Byte) : rrcResult a = (a.rotateRight 1, a.getLsbD 0) :=
  forall_byte (p := fun a => rrcResult a = (a.rotateRight 1, a.getLsbD 0)) (by decide +kernel) a

theorem ralResult_eq (a : Byte) (cy : Bool) : ralResult a cy = ((a <<< 1) ||| BitVec.ofNat 8 cy.toNat, a.msb) :=
  forall_byte (p := fun a => ∀ cy, ralResult a cy = ((a <<< 1) ||| BitVec.ofNat 8 cy.toNat, a.msb)) (by decide +kernel) a cy

theorem rarResult_eq (a : Byte) (cy : Bool) :
    rarResult a cy = ((a >>> 1) ||| BitVec.ofNat 8 (128 * cy.toNat), a.getLsbD 0) :=
  forall_byte (p := fun a => ∀ cy, rarResult a cy = ((a >>> 1) ||| BitVec.ofNat 8 (128 * cy.toNat), a.getLsbD 0))
    (by decide +kernel) a cy

theorem flagByte_toNat (f : Flags) :
    (flagByte f).toNat = f.s.toNat * 128 + f.z.toNat * 64 + f.ac.toNat * 16 + f.p.toNat * 4 + 2 + f.cy.toNat := by
  obtain ⟨s, z, ac, p, cy⟩ := f
  cases s <;> cases z <;> cases ac <;> cases p <;> cases cy <;> rfl

/-- Unpacking the packed byte gives the flags back (47_stack_control.md R313). -/
@[simp] theorem unpackFlags_flagByte (f : Flags) : unpackFlags (flagByte f) = f := by
  obtain ⟨s, z, ac, p, cy⟩ := f
  cases s <;> cases z <;> cases ac <;> cases p <;> cases cy <;> rfl

end Sys2Proof.Machine
end

