-- ==== Sys2Proof/Laws/HostOps.lean ====
section
/-! SUPPORT. The inductions over the host's operations, packaged once: what holds of every state and is carried by each step is
carried by `hostStep`, by a run of any length, and by every operation but `reset` and `assemble`. -/

namespace Sys2Proof.Machine

theorem hostStep_cases (s : State) :
    (∃ t, step s = .next t ∧ hostStep s = (t, stepReturns s)) ∨ ((∃ f, step s = .fault f) ∧ hostStep s = (s, false)) := by
  cases h : step s with
  | next t => exact .inl ⟨t, rfl, by simp [hostStep, h]⟩
  | fault f => exact .inr ⟨⟨f, rfl⟩, by simp [hostStep, h]⟩
  | refused q => exact absurd h (step_ne_refused s q)

variable {P : State → State → Prop}

theorem hostStep_induction (hrefl : ∀ s, P s s) (hstep : ∀ s t, step s = .next t → P s t) (s : State) :
    P s (hostStep s).1 := by
  rcases hostStep_cases s with ⟨t, h, h'⟩ | ⟨-, h'⟩ <;> rw [h']
  · exact hstep s t h
  · exact hrefl s

theorem hostRun_induction (hrefl : ∀ s, P s s) (htrans : ∀ s t u, P s t → P t u → P s u)
    (hstep : ∀ s t, step s = .next t → P s t) (n : Nat) (s : State) : P s (hostRun n s).1 := by
  induction n generalizing s with
  | zero => exact hrefl s
  | succ n ih =>
    unfold hostRun
    split
    · exact hrefl s
    · have hone := hostStep_induction hrefl hstep s
      split
      · rename_i t h; rw [h] at hone; exact htrans _ _ _ hone (ih t)
      · rename_i t h; rw [h] at hone; exact hone

theorem hostTick_state (s : State) : (hostTick s).1 = s ∨ (hostTick s).1 = (hostStep s).1 := by
  unfold hostTick; split <;> simp

/-- A reflexive, transitive relation that each step, the stop request and `setMemory` carry is carried by every operation but
`reset` and `assemble`. -/
theorem hostApply_induction (hrefl : ∀ s, P s s) (htrans : ∀ s t u, P s t → P t u → P s u)
    (hstep : ∀ s t, step s = .next t → P s t) (hstop : ∀ s, P s (hostStop s)) (hset : ∀ s a v, P s (setMemory s a v))
    {op : HostOp} {s t : State} {res : HostResult} (h : hostApply op s = .next (t, res)) (hreset : op ≠ .reset)
    (hassemble : ∀ txt, op ≠ .assemble txt) : P s t := by
  cases op with
  | reset => exact absurd rfl hreset
  | assemble txt => exact absurd rfl (hassemble txt)
  | step =>
    simp only [hostApply, Host.Outcome.next.injEq, Prod.mk.injEq] at h
    rw [← h.1]; exact hostStep_induction hrefl hstep s
  | run n =>
    simp only [hostApply, Host.Outcome.next.injEq, Prod.mk.injEq] at h
    rw [← h.1]; exact hostRun_induction hrefl htrans hstep n s
  | tick =>
    simp only [hostApply, Host.Outcome.next.injEq, Prod.mk.injEq] at h
    rw [← h.1]
    rcases hostTick_state s with h | h <;> rw [h]
    · exact hrefl s
    · exact hostStep_induction hrefl hstep s
  | stop => simp only [hostApply, Host.Outcome.next.injEq, Prod.mk.injEq] at h; rw [← h.1]; exact hstop s
  | getMemory a => simp only [hostApply, Host.Outcome.next.injEq, Prod.mk.injEq] at h; rw [← h.1]; exact hrefl s
  | setMemory a v => simp only [hostApply, Host.Outcome.next.injEq, Prod.mk.injEq] at h; rw [← h.1]; exact hset s a v
  | snapshot => simp only [hostApply, Host.Outcome.next.injEq, Prod.mk.injEq] at h; rw [← h.1]; exact hrefl s

/-- The host's `assemble` is the assembler under the machine's setting of P9. -/
theorem hostApply_assemble {txt : Text} {s t : State} {res : HostResult}
    (h : hostApply (.assemble txt) s = .next (t, res)) : 
    ∃ rep, assembleWith (configuredNumerals s.cfg.numerals) txt s = .next (t, rep) := by
  simp only [hostApply] at h
  split at h
  · rename_i t' r h'; simp only [Host.Outcome.next.injEq, Prod.mk.injEq] at h; rw [← h.1]; exact ⟨r, h'⟩
  · cases h
  · cases h

end Sys2Proof.Machine
end

