-- ==== Sys2Proof/Tests/Slice0.lean ====
section
/-! SUPPORT. The model's own tests. The words of the decode tests are the bit patterns of 30_encoding.md R71 and the bytes of
R76 to R84; the expected results of the other tests are those of 95_test_vectors.md (the V numbers) or follow by hand from
the rule named. The `witness_` theorems show states and operands that meet the hypotheses of the statements. -/

namespace Sys2Proof.Tests

open Sys2Proof.Machine Sys2Proof.Claims

/-- The state after reset, with PC at the load address. -/
def base : State := { State.reset with pc := 0x8000 }

/-- The same with other memory. -/
def withMem (m : Memory) : State := { base with mem := m }

/-- The same with one instruction placed at PC. -/
def placed (w : Nat) : State := base.withFetchWord 24 w

/-- What `f` sees of the state after an instruction. -/
def after {α : Type} (i : Instr) (s : State) (f : State → α) : Option α :=
  match exec i s with
  | .next t => some (f t)
  | .fault _ | .refused _ => none

/-- What `f` sees of the state and report after an assembly. -/
def assembled {α : Type} (source : String) (s : State) (f : State → Report → α) : Option α :=
  match assemble source.toList s with
  | .next (t, rep) => some (f t rep)
  | .fault _ | .refused _ => none

/-- A flag register from the digits of the vectors' order S Z AC P CY. -/
def flg (s z ac p cy : Nat) : Flags := ⟨s == 1, z == 1, ac == 1, p == 1, cy == 1⟩

/-- Every word of a list decodes to its instruction. -/
def decodesAll (l : List (Nat × Nat × Instr)) : Bool := l.all fun p => decodeTableWord p.1 p.2.1 == some p.2.2

/-! ### Decoding: every constructor -/

/-- Row 0x of the map (30_encoding.md R71, R76 to R86). -/
theorem test_decode_row_0x : decodesAll
    [(8, 0b00000000, .nop), (24, 0x123400 + 0b00000001, .lxiB 0x1234), (8, 0b00000010, .staxB),
      (8, 0b00000011, .inxB), (8, 0b00000100, .inrB), (8, 0b00000101, .dcrB),
      (16, 0x5A00 + 0b00000110, .mviB 0x5A), (8, 0b00000111, .rlc), (8, 0b00001001, .dadB),
      (8, 0b00001010, .ldaxB), (8, 0b00001011, .dcxB), (8, 0b00001100, .inrC), (8, 0b00001101, .dcrC),
      (16, 0x5A00 + 0b00001110, .mviC 0x5A), (8, 0b00001111, .rrc)] = true := by decide

/-- Row 1x of the map (30_encoding.md R71, R76 to R86). -/
theorem test_decode_row_1x : decodesAll
    [(24, 0x123400 + 0b00010001, .lxiD 0x1234), (8, 0b00010010, .staxD), (8, 0b00010011, .inxD),
      (8, 0b00010100, .inrD), (8, 0b00010101, .dcrD), (16, 0x5A00 + 0b00010110, .mviD 0x5A), (8, 0b00010111, .ral),
      (8, 0b00011001, .dadD), (8, 0b00011010, .ldaxD), (8, 0b00011011, .dcxD), (8, 0b00011100, .inrE),
      (8, 0b00011101, .dcrE), (16, 0x5A00 + 0b00011110, .mviE 0x5A), (8, 0b00011111, .rar)] = true := by decide

/-- Row 2x of the map (30_encoding.md R71, R76 to R86). -/
theorem test_decode_row_2x : decodesAll
    [(8, 0b00100000, .rim), (24, 0x123400 + 0b00100001, .lxiH 0x1234), (24, 0x123400 + 0b00100010, .shld 0x1234),
      (8, 0b00100011, .inxH), (8, 0b00100100, .inrH), (8, 0b00100101, .dcrH),
      (16, 0x5A00 + 0b00100110, .mviH 0x5A), (8, 0b00100111, .daa), (8, 0b00101001, .dadH),
      (24, 0x123400 + 0b00101010, .lhld 0x1234), (8, 0b00101011, .dcxH), (8, 0b00101100, .inrL),
      (8, 0b00101101, .dcrL), (16, 0x5A00 + 0b00101110, .mviL 0x5A), (8, 0b00101111, .cma)] = true := by decide

/-- Row 3x of the map (30_encoding.md R71, R76 to R86). -/
theorem test_decode_row_3x : decodesAll
    [(8, 0b00110000, .sim), (24, 0x123400 + 0b00110001, .lxiSP 0x1234), (24, 0x123400 + 0b00110010, .sta 0x1234),
      (8, 0b00110011, .inxSP), (8, 0b00110100, .inrM), (8, 0b00110101, .dcrM),
      (16, 0x5A00 + 0b00110110, .mviM 0x5A), (8, 0b00110111, .stc), (8, 0b00111001, .dadSP),
      (24, 0x123400 + 0b00111010, .lda 0x1234), (8, 0b00111011, .dcxSP), (8, 0b00111100, .inrA),
      (8, 0b00111101, .dcrA), (16, 0x5A00 + 0b00111110, .mviA 0x5A), (8, 0b00111111, .cmc)] = true := by decide

/-- Row 4x of the map (30_encoding.md R71, R76 to R86). -/
theorem test_decode_row_4x : decodesAll
    [(8, 0b01000000, .movBB), (8, 0b01000001, .movBC), (8, 0b01000010, .movBD), (8, 0b01000011, .movBE),
      (8, 0b01000100, .movBH), (8, 0b01000101, .movBL), (8, 0b01000110, .movBM), (8, 0b01000111, .movBA),
      (8, 0b01001000, .movCB), (8, 0b01001001, .movCC), (8, 0b01001010, .movCD), (8, 0b01001011, .movCE),
      (8, 0b01001100, .movCH), (8, 0b01001101, .movCL), (8, 0b01001110, .movCM), (8, 0b01001111, .movCA)] = true := by decide

/-- Row 5x of the map (30_encoding.md R71, R76 to R86). -/
theorem test_decode_row_5x : decodesAll
    [(8, 0b01010000, .movDB), (8, 0b01010001, .movDC), (8, 0b01010010, .movDD), (8, 0b01010011, .movDE),
      (8, 0b01010100, .movDH), (8, 0b01010101, .movDL), (8, 0b01010110, .movDM), (8, 0b01010111, .movDA),
      (8, 0b01011000, .movEB), (8, 0b01011001, .movEC), (8, 0b01011010, .movED), (8, 0b01011011, .movEE),
      (8, 0b01011100, .movEH), (8, 0b01011101, .movEL), (8, 0b01011110, .movEM), (8, 0b01011111, .movEA)] = true := by decide

/-- Row 6x of the map (30_encoding.md R71, R76 to R86). -/
theorem test_decode_row_6x : decodesAll
    [(8, 0b01100000, .movHB), (8, 0b01100001, .movHC), (8, 0b01100010, .movHD), (8, 0b01100011, .movHE),
      (8, 0b01100100, .movHH), (8, 0b01100101, .movHL), (8, 0b01100110, .movHM), (8, 0b01100111, .movHA),
      (8, 0b01101000, .movLB), (8, 0b01101001, .movLC), (8, 0b01101010, .movLD), (8, 0b01101011, .movLE),
      (8, 0b01101100, .movLH), (8, 0b01101101, .movLL), (8, 0b01101110, .movLM), (8, 0b01101111, .movLA)] = true := by decide

/-- Row 7x of the map (30_encoding.md R71, R76 to R86). -/
theorem test_decode_row_7x : decodesAll
    [(8, 0b01110000, .movMB), (8, 0b01110001, .movMC), (8, 0b01110010, .movMD), (8, 0b01110011, .movME),
      (8, 0b01110100, .movMH), (8, 0b01110101, .movML), (8, 0b01110110, .hlt), (8, 0b01110111, .movMA),
      (8, 0b01111000, .movAB), (8, 0b01111001, .movAC), (8, 0b01111010, .movAD), (8, 0b01111011, .movAE),
      (8, 0b01111100, .movAH), (8, 0b01111101, .movAL), (8, 0b01111110, .movAM), (8, 0b01111111, .movAA)] = true := by decide

/-- Row 8x of the map (30_encoding.md R71, R76 to R86). -/
theorem test_decode_row_8x : decodesAll
    [(8, 0b10000000, .addB), (8, 0b10000001, .addC), (8, 0b10000010, .addD), (8, 0b10000011, .addE),
      (8, 0b10000100, .addH), (8, 0b10000101, .addL), (8, 0b10000110, .addM), (8, 0b10000111, .addA),
      (8, 0b10001000, .adcB), (8, 0b10001001, .adcC), (8, 0b10001010, .adcD), (8, 0b10001011, .adcE),
      (8, 0b10001100, .adcH), (8, 0b10001101, .adcL), (8, 0b10001110, .adcM), (8, 0b10001111, .adcA)] = true := by decide

/-- Row 9x of the map (30_encoding.md R71, R76 to R86). -/
theorem test_decode_row_9x : decodesAll
    [(8, 0b10010000, .subB), (8, 0b10010001, .subC), (8, 0b10010010, .subD), (8, 0b10010011, .subE),
      (8, 0b10010100, .subH), (8, 0b10010101, .subL), (8, 0b10010110, .subM), (8, 0b10010111, .subA),
      (8, 0b10011000, .sbbB), (8, 0b10011001, .sbbC), (8, 0b10011010, .sbbD), (8, 0b10011011, .sbbE),
      (8, 0b10011100, .sbbH), (8, 0b10011101, .sbbL), (8, 0b10011110, .sbbM), (8, 0b10011111, .sbbA)] = true := by decide

/-- Row Ax of the map (30_encoding.md R71, R76 to R86). -/
theorem test_decode_row_Ax : decodesAll
    [(8, 0b10100000, .anaB), (8, 0b10100001, .anaC), (8, 0b10100010, .anaD), (8, 0b10100011, .anaE),
      (8, 0b10100100, .anaH), (8, 0b10100101, .anaL), (8, 0b10100110, .anaM), (8, 0b10100111, .anaA),
      (8, 0b10101000, .xraB), (8, 0b10101001, .xraC), (8, 0b10101010, .xraD), (8, 0b10101011, .xraE),
      (8, 0b10101100, .xraH), (8, 0b10101101, .xraL), (8, 0b10101110, .xraM), (8, 0b10101111, .xraA)] = true := by decide

/-- Row Bx of the map (30_encoding.md R71, R76 to R86). -/
theorem test_decode_row_Bx : decodesAll
    [(8, 0b10110000, .oraB), (8, 0b10110001, .oraC), (8, 0b10110010, .oraD), (8, 0b10110011, .oraE),
      (8, 0b10110100, .oraH), (8, 0b10110101, .oraL), (8, 0b10110110, .oraM), (8, 0b10110111, .oraA),
      (8, 0b10111000, .cmpB), (8, 0b10111001, .cmpC), (8, 0b10111010, .cmpD), (8, 0b10111011, .cmpE),
      (8, 0b10111100, .cmpH), (8, 0b10111101, .cmpL), (8, 0b10111110, .cmpM), (8, 0b10111111, .cmpA)] = true := by decide

/-- Row Cx of the map (30_encoding.md R71, R76 to R86). -/
theorem test_decode_row_Cx : decodesAll
    [(8, 0b11000000, .rnz), (8, 0b11000001, .popB), (24, 0x123400 + 0b11000010, .jnz 0x1234),
      (24, 0x123400 + 0b11000011, .jmp 0x1234), (24, 0x123400 + 0b11000100, .cnz 0x1234), (8, 0b11000101, .pushB),
      (16, 0x5A00 + 0b11000110, .adi 0x5A), (8, 0b11000111, .rst0), (8, 0b11001000, .rz), (8, 0b11001001, .ret),
      (24, 0x123400 + 0b11001010, .jz 0x1234), (24, 0x123400 + 0b11001100, .cz 0x1234),
      (24, 0x123400 + 0b11001101, .call 0x1234), (16, 0x5A00 + 0b11001110, .aci 0x5A), (8, 0b11001111, .rst1)] = true := by decide

/-- Row Dx of the map (30_encoding.md R71, R76 to R86). -/
theorem test_decode_row_Dx : decodesAll
    [(8, 0b11010000, .rnc), (8, 0b11010001, .popD), (24, 0x123400 + 0b11010010, .jnc 0x1234),
      (16, 0x5A00 + 0b11010011, .outPort 0x5A), (24, 0x123400 + 0b11010100, .cnc 0x1234), (8, 0b11010101, .pushD),
      (16, 0x5A00 + 0b11010110, .sui 0x5A), (8, 0b11010111, .rst2), (8, 0b11011000, .rc),
      (24, 0x123400 + 0b11011010, .jc 0x1234), (16, 0x5A00 + 0b11011011, .inPort 0x5A),
      (24, 0x123400 + 0b11011100, .cc 0x1234), (16, 0x5A00 + 0b11011110, .sbi 0x5A), (8, 0b11011111, .rst3)] = true := by decide

/-- Row Ex of the map (30_encoding.md R71, R76 to R86). -/
theorem test_decode_row_Ex : decodesAll
    [(8, 0b11100000, .rpo), (8, 0b11100001, .popH), (24, 0x123400 + 0b11100010, .jpo 0x1234),
      (8, 0b11100011, .xthl), (24, 0x123400 + 0b11100100, .cpo 0x1234), (8, 0b11100101, .pushH),
      (16, 0x5A00 + 0b11100110, .ani 0x5A), (8, 0b11100111, .rst4), (8, 0b11101000, .rpe), (8, 0b11101001, .pchl),
      (24, 0x123400 + 0b11101010, .jpe 0x1234), (8, 0b11101011, .xchg), (24, 0x123400 + 0b11101100, .cpe 0x1234),
      (16, 0x5A00 + 0b11101110, .xri 0x5A), (8, 0b11101111, .rst5)] = true := by decide

/-- Row Fx of the map (30_encoding.md R71, R76 to R86). -/
theorem test_decode_row_Fx : decodesAll
    [(8, 0b11110000, .rp), (8, 0b11110001, .popPSW), (24, 0x123400 + 0b11110010, .jp 0x1234),
      (8, 0b11110011, .di), (24, 0x123400 + 0b11110100, .cp 0x1234), (8, 0b11110101, .pushPSW),
      (16, 0x5A00 + 0b11110110, .ori 0x5A), (8, 0b11110111, .rst6), (8, 0b11111000, .rm), (8, 0b11111001, .sphl),
      (24, 0x123400 + 0b11111010, .jm 0x1234), (8, 0b11111011, .ei), (24, 0x123400 + 0b11111100, .cm 0x1234),
      (16, 0x5A00 + 0b11111110, .cpi 0x5A), (8, 0b11111111, .rst7)] = true := by decide

/-- The ten bytes of 30_encoding.md R87 are no instruction. -/
theorem test_decode_undefined :
    ([0x08, 0x10, 0x18, 0x28, 0x38, 0xCB, 0xD9, 0xDD, 0xED, 0xFD].all fun w => decodeTableWord 24 w == none) = true := by
  decide +kernel

theorem test_decode_truncated : decode [0x3E] = .error .truncated ∧ decode [0xC2, 0x02] = .error .truncated :=
  ⟨rfl, rfl⟩

theorem test_encode_jnz : encode (.jnz 0x8002) = [0xC2, 0x02, 0x80] := by decide

/-! ### Well-formedness -/

/-- MOV M,M is no instruction (30_encoding.md R88). -/
theorem test_wf_refuses_mov_m_m : (Form.mov .mem .mem).wf = false := rfl

theorem test_wf_accepts_mov_m_b : (Form.mov .mem (.reg .B)).wf = true := rfl

/-- A record whose texts name another instruction (40_assembler.md R128). -/
theorem test_wf_refuses_wrong_text : (Record.mk 0x8000 (text "INR") [text "A"] 0x3D .dcrA 1).wf defaultConfig = false := by
  decide

/-- A record whose byte is not its instruction's (40_assembler.md R128). -/
theorem test_wf_refuses_wrong_byte : (Record.mk 0x8000 (text "INR") [text "A"] 0x3D .inrA 1).wf defaultConfig = false := by
  decide

/-- A record whose texts are no key (40_assembler.md R109). -/
theorem test_wf_refuses_unknown_text : (Record.mk 0x8000 (text "FOO") [] 0x00 .nop 1).wf defaultConfig = false := by decide

/-- Lines count from 1 (40_assembler.md R104). -/
theorem test_wf_refuses_line_zero : (Record.mk 0x8000 (text "INR") [text "A"] 0x3C .inrA 0).wf defaultConfig = false := by
  decide

/-- Two records one byte apart that should touch (10_state.md R36). -/
theorem test_wf_refuses_gap : progWf defaultConfig
    [⟨0x8000, text "NOP", [], 0x00, .nop, 1⟩, ⟨0x8002, text "NOP", [], 0x00, .nop, 2⟩] = false := by decide

theorem test_wf_accepts_touching : progWf defaultConfig
    [⟨0x8000, text "NOP", [], 0x00, .nop, 1⟩, ⟨0x8001, text "NOP", [], 0x00, .nop, 3⟩] = true := by decide

/-- Source order (10_state.md R36). -/
theorem test_wf_refuses_line_order : progWf defaultConfig
    [⟨0x8000, text "NOP", [], 0x00, .nop, 2⟩, ⟨0x8001, text "NOP", [], 0x00, .nop, 2⟩] = false := by decide

/-- P4 is injective: NOP moved to RET's byte is refused, NOP and RET exchanged are not (93_implementation_defined.md U1). -/
theorem test_wf_refuses_shared_byte : Config.wf { defaultConfig with opcode := [(0x00, 0xC9)] } = false
    ∧ Config.wf { defaultConfig with opcode := [(0x00, 0xC9), (0xC9, 0x00)] } = true := by decide +kernel

/-- P4 gives no other signature 0x76 (93_implementation_defined.md U1). -/
theorem test_wf_refuses_second_76 : Config.wf { defaultConfig with opcode := [(0x00, 0x76)] } = false := by decide +kernel

/-- An image may end at 0x10000 and not beyond (40_assembler.md R134). -/
theorem test_wf_refuses_past_end : 
    progWfFrom defaultConfig 0x10000 0 [] = true ∧ progWfFrom defaultConfig 0x10001 0 [] = false := ⟨rfl, rfl⟩

/-- A listed zero, falling addresses, an address past the end: not canonical (20_memory.md R50). -/
theorem test_wf_refuses_memory : Memory.wf [(0x10, 0)] = false ∧ Memory.wf [(2, 1), (1, 1)] = false
    ∧ Memory.wf [(0x10000, 1)] = false ∧ Memory.wf [(0, 1), (0xFFFF, 1)] = true := ⟨rfl, rfl, rfl, rfl⟩

theorem test_wf_refuses_double_label : labelsWf [(text "X", 1), (text "X", 2)] = false := by decide

/-! ### Data transfer -/


/-- V10. -/
theorem test_mov_register : after .movAB { base with b := 0x12 } (fun t => (t.a, t.pc, t.tStates)) = some (0x12, 0x8001, 4) := by decide

/-- V11: M is the byte at HL. -/
theorem test_mov_to_m : after .movMA { base with a := 0x5A, h := 0x90 } (fun t => (t.mem, t.tStates)) = some ([(0x9000, 0x5A)], 7) := by decide

/-- V11. -/
theorem test_mov_from_m : after .movCM { withMem [(0x9000, 0x5A)] with h := 0x90 } (fun t => t.c) = some 0x5A := by decide

/-- V12. -/
theorem test_mvi_m : after (.mviM 0xA5) { base with h := 0x90, l := 0x01 } (fun t => (t.mem, t.pc, t.tStates)) = some ([(0x9001, 0xA5)], 0x8002, 10) := by decide

/-- V14: high byte to the first register. -/
theorem test_lxi_b : after (.lxiB 0xA1B2) base (fun t => (t.b, t.c, t.pc)) = some (0xA1, 0xB2, 0x8003) := by decide

/-- V13. -/
theorem test_lxi_sp : after (.lxiSP 0x1234) base (fun t => t.sp) = some 0x1234 := by decide

/-- V15. -/
theorem test_sta : after (.sta 0x9010) { base with a := 0x77 } (fun t => (t.mem, t.tStates)) = some ([(0x9010, 0x77)], 13) := by decide

/-- V15. -/
theorem test_lda : after (.lda 0x9010) (withMem [(0x9010, 0x77)]) (fun t => t.a) = some 0x77 := by decide

/-- V18: a word read at 0xFFFF wraps. -/
theorem test_lhld_wraps : after (.lhld 0xFFFF) (withMem [(0x0000, 0xAB), (0xFFFF, 0xCD)]) (fun t => (t.h, t.l)) = some (0xAB, 0xCD) := by decide

/-- V17: a word stored at 0xFFFF wraps. -/
theorem test_shld_wraps : after (.shld 0xFFFF) { base with h := 0x12, l := 0x34 } (fun t => t.mem) = some [(0x0000, 0x12), (0xFFFF, 0x34)] := by decide

/-- V19. -/
theorem test_ldax_d : after .ldaxD { withMem [(0x9030, 0x3C)] with d := 0x90, e := 0x30 } (fun t => t.a) = some 0x3C := by decide

/-- V19. -/
theorem test_stax_b : after .staxB { base with a := 0x3C, b := 0x90, c := 0x30 } (fun t => t.mem) = some [(0x9030, 0x3C)] := by decide

/-- V20. -/
theorem test_xchg : after .xchg { base with h := 0x11, l := 0x22, d := 0x33, e := 0x44 } (fun t => (t.h, t.l, t.d, t.e)) = some (0x33, 0x44, 0x11, 0x22) := by decide

/-! ### Arithmetic -/

/-- V23. -/
theorem test_add_wraps : after .addB { base with a := 0xFF, b := 0x01 } (fun t => (t.a, t.flags)) = some (0x00, flg 0 1 1 1 1) := by decide

/-- V26. -/
theorem test_add_m : after .addM { withMem [(0x9000, 0x22)] with a := 0x11, h := 0x90 } (fun t => (t.a, t.flags)) = some (0x33, flg 0 0 0 1 0) := by decide

/-- V24: signed overflow is no flag. -/
theorem test_adi_overflow : after (.adi 0x01) { base with a := 0x7F } (fun t => (t.a, t.flags)) = some (0x80, flg 1 0 1 0 0) := by decide

/-- V27: the carry in alone causes AC. -/
theorem test_adc_carry_in : after .adcB { base with a := 0x0F, flags := flg 0 0 0 0 1 } (fun t => (t.a, t.flags)) = some (0x10, flg 0 0 1 0 0) := by decide

/-- V28. -/
theorem test_aci : after (.aci 0xFF) { base with a := 0xFF, flags := flg 0 0 0 0 1 } (fun t => (t.a, t.flags)) = some (0xFF, flg 1 0 1 1 1) := by decide

/-- V34. -/
theorem test_sub_a : after .subA { base with a := 0x3C, flags := flg 0 0 0 0 1 } (fun t => (t.a, t.flags)) = some (0x00, flg 0 1 1 1 0) := by decide

/-- V30: borrow. -/
theorem test_sui_borrow : after (.sui 0x01) base (fun t => (t.a, t.flags)) = some (0xFF, flg 1 0 0 1 1) := by decide

/-- 41_alu_flags.md R146: the same subtraction under the other two readings of P8. -/
theorem test_sui_cleared : after (.sui 0x05) { base with a := 0x05, cfg := { defaultConfig with acSub := .cleared } } (fun t => (t.a, t.flags)) = some (0x00, flg 0 1 0 1 0) := by decide

/-- V35. -/
theorem test_sbb : after .sbbB { base with a := 0x10, b := 0x01, flags := flg 0 0 0 0 1 } (fun t => (t.a, t.flags)) = some (0x0E, flg 0 0 0 0 0) := by decide

/-- V33: 0 - 255 - 1. -/
theorem test_sbi_minus_256 : after (.sbi 0xFF) { base with flags := flg 0 0 0 0 1 } (fun t => (t.a, t.flags)) = some (0x00, flg 0 1 0 1 1) := by decide

/-- V39: an unsigned compare, A kept. -/
theorem test_cmp_m : after .cmpM { withMem [(0x9000, 0x80)] with a := 0x7F, h := 0x90 } (fun t => (t.a, t.flags)) = some (0x7F, flg 1 0 1 1 1) := by decide

/-- V36. -/
theorem test_cpi_less : after (.cpi 0x05) { base with a := 0x04 } (fun t => (t.a, t.flags)) = some (0x04, flg 1 0 0 1 1) := by decide

/-- 41_alu_flags.md R146, the borrow reading of P8: 4 - 5 borrows out of the low nibble. -/
theorem test_cpi_borrow_reading : after (.cpi 0x05) { base with a := 0x04, cfg := { defaultConfig with acSub := .borrow } } (fun t => t.flags.ac) = some true := by decide

/-- V41: wraps, CY stays. -/
theorem test_inr_wraps : after .inrB { base with b := 0xFF, flags := flg 0 0 0 0 1 } (fun t => (t.b, t.flags)) = some (0x00, flg 0 1 1 1 1) := by decide

/-- V47. -/
theorem test_inr_m : after .inrM { withMem [(0x9000, 0xFF)] with h := 0x90 } (fun t => (t.mem, t.flags, t.tStates)) = some ([], flg 0 1 1 1 0, 10) := by decide

/-- V44. -/
theorem test_dcr_wraps : after .dcrE base (fun t => (t.e, t.flags)) = some (0xFF, flg 1 0 0 1 0) := by decide

/-- V48. -/
theorem test_dcr_m : after .dcrM { base with h := 0x90 } (fun t => (t.mem, t.flags)) = some ([(0x9000, 0xFF)], flg 1 0 0 1 0) := by decide

/-- V2: no flag. -/
theorem test_inx_h_wraps : after .inxH { base with h := 0xFF, l := 0xFF } (fun t => (t.h, t.l, t.flags)) = some (0x00, 0x00, flg 0 0 0 0 0) := by decide

/-- V2. -/
theorem test_inx_sp_wraps : after .inxSP base (fun t => t.sp) = some 0x0000 := by decide

/-- V2. -/
theorem test_dcx_d_borrows : after .dcxD { base with d := 0x01, e := 0x00 } (fun t => (t.d, t.e)) = some (0x00, 0xFF) := by decide

/-- V2. -/
theorem test_dcx_sp : after .dcxSP base (fun t => t.sp) = some 0xFFFE := by decide

/-- V49. -/
theorem test_dad_h_overflows : after .dadH { base with h := 0x80 } (fun t => (t.h, t.l, t.flags)) = some (0x00, 0x00, flg 0 0 0 0 1) := by decide

/-- V51. -/
theorem test_dad_sp : after .dadSP { base with l := 0x02 } (fun t => (t.h, t.l, t.flags.cy)) = some (0x00, 0x01, true) := by decide

/-- V57, the borderline case. -/
theorem test_daa_borderline : after .daa { base with a := 0x9A, flags := flg 1 0 0 1 0 } (fun t => (t.a, t.flags)) = some (0x00, flg 0 1 1 1 1) := by decide

/-- V60. -/
theorem test_daa_carry_in : after .daa { base with flags := flg 0 0 0 0 1 } (fun t => (t.a, t.flags)) = some (0x60, flg 0 0 0 1 1) := by decide

/-! ### Logical -/

/-- V62. -/
theorem test_ana : after .anaB { base with a := 0xFF, b := 0x81 } (fun t => (t.a, t.flags)) = some (0x81, flg 1 0 0 1 0) := by decide

/-- V68: ANI clears CY and AC. -/
theorem test_ani_clears : after (.ani 0xFF) { base with flags := flg 0 1 1 1 1 } (fun t => (t.a, t.flags)) = some (0x00, flg 0 1 0 1 0) := by decide

/-- V66. -/
theorem test_xra_a : after .xraA { base with a := 0x5A, flags := flg 0 0 0 0 1 } (fun t => (t.a, t.flags)) = some (0x00, flg 0 1 0 1 0) := by decide

/-- V67. -/
theorem test_xri : after (.xri 0xFF) { base with a := 0x55 } (fun t => (t.a, t.flags)) = some (0xAA, flg 1 0 0 1 0) := by decide

/-- V65. -/
theorem test_ora_m : after .oraM { withMem [(0x9000, 0x01)] with h := 0x90 } (fun t => (t.a, t.flags)) = some (0x01, flg 0 0 0 0 0) := by decide

/-- V64. -/
theorem test_ori_zero : after (.ori 0x00) base (fun t => (t.a, t.flags)) = some (0x00, flg 0 1 0 1 0) := by decide

/-- V69. -/
theorem test_rlc : after .rlc { base with a := 0x80 } (fun t => (t.a, t.flags)) = some (0x01, flg 0 0 0 0 1) := by decide

/-- V71. -/
theorem test_rrc : after .rrc { base with a := 0x01 } (fun t => (t.a, t.flags)) = some (0x80, flg 0 0 0 0 1) := by decide

/-- V76: a rotate writes CY only. -/
theorem test_ral : after .ral { base with flags := flg 0 1 0 1 1 } (fun t => (t.a, t.flags)) = some (0x01, flg 0 1 0 1 0) := by decide

/-- V74. -/
theorem test_rar : after .rar { base with a := 0x01, flags := flg 0 0 0 0 1 } (fun t => (t.a, t.flags)) = some (0x80, flg 0 0 0 0 1) := by decide

/-- V77. -/
theorem test_cma : after .cma { base with a := 0xF0, flags := flg 1 1 1 1 1 } (fun t => (t.a, t.flags)) = some (0x0F, flg 1 1 1 1 1) := by decide

/-- V78. -/
theorem test_cmc : after .cmc base (fun t => t.flags) = some (flg 0 0 0 0 1) := by decide

/-- V80. -/
theorem test_stc : after .stc { base with flags := flg 0 1 0 0 1 } (fun t => t.flags) = some (flg 0 1 0 0 1) := by decide

/-! ### Branching -/

/-- V82. -/
theorem test_jmp : after (.jmp 0x8005) base (fun t => (t.pc, t.tStates)) = some (0x8005, 10) := by decide

/-- 46_branch.md R270; taken 10 T-states. -/
theorem test_jz_taken : after (.jz 0x9000) { base with flags := flg 0 1 0 0 0 } (fun t => (t.pc, t.tStates)) = some (0x9000, 10) := by decide

/-- 46_branch.md R270; not taken 7. -/
theorem test_jz_not_taken : after (.jz 0x9000) { base with flags := flg 0 0 0 0 0 } (fun t => (t.pc, t.tStates)) = some (0x8003, 7) := by decide

/-- 46_branch.md R270; taken 10 T-states. -/
theorem test_jnz_taken : after (.jnz 0x9000) { base with flags := flg 0 0 0 0 0 } (fun t => (t.pc, t.tStates)) = some (0x9000, 10) := by decide

/-- 46_branch.md R270; not taken 7. -/
theorem test_jnz_not_taken : after (.jnz 0x9000) { base with flags := flg 0 1 0 0 0 } (fun t => (t.pc, t.tStates)) = some (0x8003, 7) := by decide

/-- 46_branch.md R270; taken 10 T-states. -/
theorem test_jc_taken : after (.jc 0x9000) { base with flags := flg 0 0 0 0 1 } (fun t => (t.pc, t.tStates)) = some (0x9000, 10) := by decide

/-- 46_branch.md R270; not taken 7. -/
theorem test_jc_not_taken : after (.jc 0x9000) { base with flags := flg 0 0 0 0 0 } (fun t => (t.pc, t.tStates)) = some (0x8003, 7) := by decide

/-- 46_branch.md R270; taken 10 T-states. -/
theorem test_jnc_taken : after (.jnc 0x9000) { base with flags := flg 0 0 0 0 0 } (fun t => (t.pc, t.tStates)) = some (0x9000, 10) := by decide

/-- 46_branch.md R270; not taken 7. -/
theorem test_jnc_not_taken : after (.jnc 0x9000) { base with flags := flg 0 0 0 0 1 } (fun t => (t.pc, t.tStates)) = some (0x8003, 7) := by decide

/-- 46_branch.md R270; taken 10 T-states. -/
theorem test_jpe_taken : after (.jpe 0x9000) { base with flags := flg 0 0 0 1 0 } (fun t => (t.pc, t.tStates)) = some (0x9000, 10) := by decide

/-- 46_branch.md R270; not taken 7. -/
theorem test_jpe_not_taken : after (.jpe 0x9000) { base with flags := flg 0 0 0 0 0 } (fun t => (t.pc, t.tStates)) = some (0x8003, 7) := by decide

/-- 46_branch.md R270; taken 10 T-states. -/
theorem test_jpo_taken : after (.jpo 0x9000) { base with flags := flg 0 0 0 0 0 } (fun t => (t.pc, t.tStates)) = some (0x9000, 10) := by decide

/-- 46_branch.md R270; not taken 7. -/
theorem test_jpo_not_taken : after (.jpo 0x9000) { base with flags := flg 0 0 0 1 0 } (fun t => (t.pc, t.tStates)) = some (0x8003, 7) := by decide

/-- 46_branch.md R270; taken 10 T-states. -/
theorem test_jm_taken : after (.jm 0x9000) { base with flags := flg 1 0 0 0 0 } (fun t => (t.pc, t.tStates)) = some (0x9000, 10) := by decide

/-- 46_branch.md R270; not taken 7. -/
theorem test_jm_not_taken : after (.jm 0x9000) { base with flags := flg 0 0 0 0 0 } (fun t => (t.pc, t.tStates)) = some (0x8003, 7) := by decide

/-- 46_branch.md R270; taken 10 T-states. -/
theorem test_jp_taken : after (.jp 0x9000) { base with flags := flg 0 0 0 0 0 } (fun t => (t.pc, t.tStates)) = some (0x9000, 10) := by decide

/-- 46_branch.md R270; not taken 7. -/
theorem test_jp_not_taken : after (.jp 0x9000) { base with flags := flg 1 0 0 0 0 } (fun t => (t.pc, t.tStates)) = some (0x8003, 7) := by decide

/-- V92: CALL with the reset SP. -/
theorem test_call : after (.call 0x9000) base (fun t => (t.mem, t.sp, t.pc, t.tStates)) = some ([(0xFFFD, 0x03), (0xFFFE, 0x80)], 0xFFFD, 0x9000, 18) := by decide

/-- 46_branch.md R281 to R288, V94. -/
theorem test_cz_taken : after (.cz 0x9000) { base with flags := flg 0 1 0 0 0 } (fun t => (t.pc, t.sp, t.tStates)) = some (0x9000, 0xFFFD, 18) := by decide

/-- V93: not taken, nothing is pushed. -/
theorem test_cz_not_taken : after (.cz 0x9000) { base with flags := flg 0 0 0 0 0 } (fun t => (t.pc, t.sp, t.mem, t.tStates)) = some (0x8003, 0xFFFF, [], 9) := by decide

/-- 46_branch.md R281 to R288, V94. -/
theorem test_cnz_taken : after (.cnz 0x9000) { base with flags := flg 0 0 0 0 0 } (fun t => (t.pc, t.sp, t.tStates)) = some (0x9000, 0xFFFD, 18) := by decide

/-- V93: not taken, nothing is pushed. -/
theorem test_cnz_not_taken : after (.cnz 0x9000) { base with flags := flg 0 1 0 0 0 } (fun t => (t.pc, t.sp, t.mem, t.tStates)) = some (0x8003, 0xFFFF, [], 9) := by decide

/-- 46_branch.md R281 to R288, V94. -/
theorem test_cc_taken : after (.cc 0x9000) { base with flags := flg 0 0 0 0 1 } (fun t => (t.pc, t.sp, t.tStates)) = some (0x9000, 0xFFFD, 18) := by decide

/-- V93: not taken, nothing is pushed. -/
theorem test_cc_not_taken : after (.cc 0x9000) { base with flags := flg 0 0 0 0 0 } (fun t => (t.pc, t.sp, t.mem, t.tStates)) = some (0x8003, 0xFFFF, [], 9) := by decide

/-- 46_branch.md R281 to R288, V94. -/
theorem test_cnc_taken : after (.cnc 0x9000) { base with flags := flg 0 0 0 0 0 } (fun t => (t.pc, t.sp, t.tStates)) = some (0x9000, 0xFFFD, 18) := by decide

/-- V93: not taken, nothing is pushed. -/
theorem test_cnc_not_taken : after (.cnc 0x9000) { base with flags := flg 0 0 0 0 1 } (fun t => (t.pc, t.sp, t.mem, t.tStates)) = some (0x8003, 0xFFFF, [], 9) := by decide

/-- 46_branch.md R281 to R288, V94. -/
theorem test_cpe_taken : after (.cpe 0x9000) { base with flags := flg 0 0 0 1 0 } (fun t => (t.pc, t.sp, t.tStates)) = some (0x9000, 0xFFFD, 18) := by decide

/-- V93: not taken, nothing is pushed. -/
theorem test_cpe_not_taken : after (.cpe 0x9000) { base with flags := flg 0 0 0 0 0 } (fun t => (t.pc, t.sp, t.mem, t.tStates)) = some (0x8003, 0xFFFF, [], 9) := by decide

/-- 46_branch.md R281 to R288, V94. -/
theorem test_cpo_taken : after (.cpo 0x9000) { base with flags := flg 0 0 0 0 0 } (fun t => (t.pc, t.sp, t.tStates)) = some (0x9000, 0xFFFD, 18) := by decide

/-- V93: not taken, nothing is pushed. -/
theorem test_cpo_not_taken : after (.cpo 0x9000) { base with flags := flg 0 0 0 1 0 } (fun t => (t.pc, t.sp, t.mem, t.tStates)) = some (0x8003, 0xFFFF, [], 9) := by decide

/-- 46_branch.md R281 to R288, V94. -/
theorem test_cm_taken : after (.cm 0x9000) { base with flags := flg 1 0 0 0 0 } (fun t => (t.pc, t.sp, t.tStates)) = some (0x9000, 0xFFFD, 18) := by decide

/-- V93: not taken, nothing is pushed. -/
theorem test_cm_not_taken : after (.cm 0x9000) { base with flags := flg 0 0 0 0 0 } (fun t => (t.pc, t.sp, t.mem, t.tStates)) = some (0x8003, 0xFFFF, [], 9) := by decide

/-- 46_branch.md R281 to R288, V94. -/
theorem test_cp_taken : after (.cp 0x9000) { base with flags := flg 0 0 0 0 0 } (fun t => (t.pc, t.sp, t.tStates)) = some (0x9000, 0xFFFD, 18) := by decide

/-- V93: not taken, nothing is pushed. -/
theorem test_cp_not_taken : after (.cp 0x9000) { base with flags := flg 1 0 0 0 0 } (fun t => (t.pc, t.sp, t.mem, t.tStates)) = some (0x8003, 0xFFFF, [], 9) := by decide

/-- V97: RET on the reset stack wraps. -/
theorem test_ret_wraps : after .ret (withMem [(0x0000, 0x12), (0xFFFF, 0x34)]) (fun t => (t.pc, t.sp, t.tStates)) = some (0x1234, 0x0001, 10) := by decide

/-- 46_branch.md R290 to R297, V94. -/
theorem test_rz_taken : after .rz { withMem [(0x0000, 0x12), (0xFFFF, 0x34)] with flags := flg 0 1 0 0 0 } (fun t => (t.pc, t.sp, t.tStates)) = some (0x1234, 0x0001, 12) := by decide

/-- V94: not taken. -/
theorem test_rz_not_taken : after .rz { base with flags := flg 0 0 0 0 0 } (fun t => (t.pc, t.sp, t.tStates)) = some (0x8001, 0xFFFF, 6) := by decide

/-- 46_branch.md R290 to R297, V94. -/
theorem test_rnz_taken : after .rnz { withMem [(0x0000, 0x12), (0xFFFF, 0x34)] with flags := flg 0 0 0 0 0 } (fun t => (t.pc, t.sp, t.tStates)) = some (0x1234, 0x0001, 12) := by decide

/-- V94: not taken. -/
theorem test_rnz_not_taken : after .rnz { base with flags := flg 0 1 0 0 0 } (fun t => (t.pc, t.sp, t.tStates)) = some (0x8001, 0xFFFF, 6) := by decide

/-- 46_branch.md R290 to R297, V94. -/
theorem test_rc_taken : after .rc { withMem [(0x0000, 0x12), (0xFFFF, 0x34)] with flags := flg 0 0 0 0 1 } (fun t => (t.pc, t.sp, t.tStates)) = some (0x1234, 0x0001, 12) := by decide

/-- V94: not taken. -/
theorem test_rc_not_taken : after .rc { base with flags := flg 0 0 0 0 0 } (fun t => (t.pc, t.sp, t.tStates)) = some (0x8001, 0xFFFF, 6) := by decide

/-- 46_branch.md R290 to R297, V94. -/
theorem test_rnc_taken : after .rnc { withMem [(0x0000, 0x12), (0xFFFF, 0x34)] with flags := flg 0 0 0 0 0 } (fun t => (t.pc, t.sp, t.tStates)) = some (0x1234, 0x0001, 12) := by decide

/-- V94: not taken. -/
theorem test_rnc_not_taken : after .rnc { base with flags := flg 0 0 0 0 1 } (fun t => (t.pc, t.sp, t.tStates)) = some (0x8001, 0xFFFF, 6) := by decide

/-- 46_branch.md R290 to R297, V94. -/
theorem test_rpe_taken : after .rpe { withMem [(0x0000, 0x12), (0xFFFF, 0x34)] with flags := flg 0 0 0 1 0 } (fun t => (t.pc, t.sp, t.tStates)) = some (0x1234, 0x0001, 12) := by decide

/-- V94: not taken. -/
theorem test_rpe_not_taken : after .rpe { base with flags := flg 0 0 0 0 0 } (fun t => (t.pc, t.sp, t.tStates)) = some (0x8001, 0xFFFF, 6) := by decide

/-- 46_branch.md R290 to R297, V94. -/
theorem test_rpo_taken : after .rpo { withMem [(0x0000, 0x12), (0xFFFF, 0x34)] with flags := flg 0 0 0 0 0 } (fun t => (t.pc, t.sp, t.tStates)) = some (0x1234, 0x0001, 12) := by decide

/-- V94: not taken. -/
theorem test_rpo_not_taken : after .rpo { base with flags := flg 0 0 0 1 0 } (fun t => (t.pc, t.sp, t.tStates)) = some (0x8001, 0xFFFF, 6) := by decide

/-- 46_branch.md R290 to R297, V94. -/
theorem test_rm_taken : after .rm { withMem [(0x0000, 0x12), (0xFFFF, 0x34)] with flags := flg 1 0 0 0 0 } (fun t => (t.pc, t.sp, t.tStates)) = some (0x1234, 0x0001, 12) := by decide

/-- V94: not taken. -/
theorem test_rm_not_taken : after .rm { base with flags := flg 0 0 0 0 0 } (fun t => (t.pc, t.sp, t.tStates)) = some (0x8001, 0xFFFF, 6) := by decide

/-- 46_branch.md R290 to R297, V94. -/
theorem test_rp_taken : after .rp { withMem [(0x0000, 0x12), (0xFFFF, 0x34)] with flags := flg 0 0 0 0 0 } (fun t => (t.pc, t.sp, t.tStates)) = some (0x1234, 0x0001, 12) := by decide

/-- V94: not taken. -/
theorem test_rp_not_taken : after .rp { base with flags := flg 1 0 0 0 0 } (fun t => (t.pc, t.sp, t.tStates)) = some (0x8001, 0xFFFF, 6) := by decide

/-- V95. -/
theorem test_pchl : after .pchl { base with h := 0x80, l := 0x06 } (fun t => t.pc) = some 0x8006 := by decide

/-- V96. -/
theorem test_rst_seven : after .rst7 { base with sp := 0x9000 } (fun t => (t.pc, t.sp, t.mem)) = some (0x0038, 0x8FFE, [(0x8FFE, 0x01), (0x8FFF, 0x80)]) := by decide

/-! ### Stack and control -/

/-- V105: stack addresses wrap. -/
theorem test_push_wraps : after .pushB { base with sp := 0x0001, b := 0xA1, c := 0xB2 } (fun t => (t.mem, t.sp)) = some ([(0x0000, 0xA1), (0xFFFF, 0xB2)], 0xFFFF) := by decide

/-- V100: the flag byte. -/
theorem test_push_psw : after .pushPSW { base with sp := 0x9000, a := 0x12, flags := flg 0 1 1 1 1 } (fun t => t.mem) = some [(0x8FFE, 0x57), (0x8FFF, 0x12)] := by decide

/-- V106. -/
theorem test_pop_wraps : after .popB (withMem [(0x0000, 0x22), (0xFFFF, 0x11)]) (fun t => (t.b, t.c, t.sp)) = some (0x22, 0x11, 0x0001) := by decide

/-- V102: bits 5, 3 and 1 are ignored. -/
theorem test_pop_psw : after .popPSW { withMem [(0x9000, 0xFF), (0x9001, 0xAB)] with sp := 0x9000 } (fun t => (t.a, t.flags)) = some (0xAB, flg 1 1 1 1 1) := by decide

/-- V107. -/
theorem test_xthl : after .xthl { withMem [(0x9000, 0xCD), (0x9001, 0xAB)] with sp := 0x9000, h := 0x12, l := 0x34 } (fun t => (t.h, t.l, t.mem, t.sp)) = some (0xAB, 0xCD, [(0x9000, 0x34), (0x9001, 0x12)], 0x9000) := by decide

/-- V109. -/
theorem test_sphl : after .sphl { base with h := 0xAB, l := 0xCD } (fun t => (t.sp, t.tStates)) = some (0xABCD, 6) := by decide

/-- V110. -/
theorem test_nop : after .nop base (fun t => t) = some ({ base with pc := 0x8001, tStates := 4 }) := by decide

/-- V110. -/
theorem test_ei : after .ei base (fun t => t) = some ({ base with pc := 0x8001, tStates := 4 }) := by decide

/-- V110. -/
theorem test_di : after .di base (fun t => t) = some ({ base with pc := 0x8001, tStates := 4 }) := by decide

/-- V110. -/
theorem test_rim : after .rim base (fun t => t) = some ({ base with pc := 0x8001, tStates := 4 }) := by decide

/-- V110. -/
theorem test_sim : after .sim base (fun t => t) = some ({ base with pc := 0x8001, tStates := 4 }) := by decide

/-- V110: IN leaves A. -/
theorem test_in : after (.inPort 0x10) { base with a := 0x33 } (fun t => t) = some ({ base with a := 0x33, pc := 0x8002, tStates := 10 }) := by decide

/-- V110. -/
theorem test_out : after (.outPort 0x20) { base with a := 0x33 } (fun t => t) = some ({ base with a := 0x33, pc := 0x8002, tStates := 10 }) := by decide

/-- V111: PC stays at the HLT. -/
theorem test_hlt : after .hlt base (fun t => (t.halted, t.pc, t.tStates)) = some (true, 0x8000, 5) := by decide

/-! ### The step, the host's operations and the assembler -/

/-- V8: nothing assembled, the step fails. -/
theorem test_step_fails_after_reset : step State.reset = .fault .stepFailure := rfl

/-- V98: no record, and the byte is 0x76. -/
theorem test_step_raw_halt : step (withMem [(0x8000, 0x76)]) = .next { withMem [(0x8000, 0x76)] with halted := true } := rfl

/-- V122: a halted engine refuses. -/
theorem test_step_refused : hostStep { base with halted := true } = ({ base with halted := true }, false) := rfl

/-- V123: a patched operand byte counts under P7 = `memory` only. -/
theorem test_operand_source : fetch (setMemory (placed 0x013E) 0x8001 0x99) = .run (.mviA 0x01)
    ∧ fetch { setMemory (placed 0x013E) 0x8001 0x99 with cfg := { defaultConfig with operandSource := .memory } }
      = .run (.mviA 0x99) := by decide

/-- Interface: the word placed runs as the first instruction after reset, also from a halted state. -/
theorem test_with_fetch_word : fetch (State.reset.withFetchWord 24 0x8002C2) = .run (.jnz 0x8002)
    ∧ fetch ({ State.reset with halted := true }.withFetchWord 8 0x76) = .run .hlt := by decide

/-- 30_encoding.md R87: one of the ten bytes at PC, with no record, is the step failure like any other byte. -/
theorem test_undefined_byte_fails : step (withMem [(0x8000, 0x08)]) = .fault .stepFailure
    ∧ step (placed 0xDD) = .fault .stepFailure ∧ (placed 0xDD).prog = [] := ⟨rfl, rfl, rfl⟩

/-- Parameter P4: the byte changes, and what executes does not (42_step_engine.md R165). -/
theorem test_opcode_setting : ∀ s : State, s = { base with cfg := { defaultConfig with opcode := [(0x3E, 0x08)] } } →
    (s.withFetchWord 16 0x053E).mem = [(0x8000, 0x08), (0x8001, 0x05)]
    ∧ fetch (s.withFetchWord 16 0x053E) = .run (.mviA 0x05) := by
  rintro _ rfl
  exact ⟨by decide, by decide⟩

/-- P3: no setting of P4 moves HLT (00_scope.md R6). -/
theorem test_opcode_setting_keeps_hlt : opcodeByte { defaultConfig with opcode := [(0x76, 0x08)] } .hlt = 0x76 := rfl

/-- A counter of 8 bits wraps (parameter P12). -/
theorem test_counter_width : addTStates (some 8) 250 10 = 4 ∧ addTStates none 250 10 = 260 := ⟨rfl, rfl⟩

/-- V121: a run stopped by its ceiling. -/
theorem test_run_ceiling : (hostRun 2 (placed 0x8000C3)).2 = (2, .ceiling) := by decide

/-- V113: a forward reference; its bytes, labels and PC. -/
theorem test_assemble_forward : ∀ source, source = "JMP END\nNOP\nEND: HLT" →
    assembled source State.reset (fun t _ => t.mem)
      = some [(0x8000, 0xC3), (0x8001, 0x04), (0x8002, 0x80), (0x8004, 0x76)]
    ∧ assembled source State.reset (fun t rep => (t.labels, t.pc, rep.success, rep.count))
      = some ([(text "END", 0x8004)], 0x8000, true, 3) := by
  rintro _ rfl
  exact ⟨by decide, by decide +kernel⟩

/-- V112, its lines 2, 4 and 8: lower case, an unknown mnemonic, a label on an unrecognised line. -/
theorem test_assemble_lenient : ∀ source, source = "START:  mvi a, 10   ; ten\nFOO B\nTAIL: ADD X\n jz TAIL" →
    assembled source State.reset (fun t _ => t.mem)
      = some [(0x8000, 0x3E), (0x8001, 0x0A), (0x8002, 0xCA), (0x8003, 0x02), (0x8004, 0x80)]
    ∧ assembled source State.reset (fun t rep => (t.labels, rep.unrecognised, t.prog.map Record.sourceLine))
      = some ([(text "START", 0x8000), (text "TAIL", 0x8002)], [2, 3], [1, 4]) := by
  rintro _ rfl
  exact ⟨by decide, by decide +kernel⟩

/-- V118: no instruction, PC stays, `halted` is cleared. -/
theorem test_assemble_empty : assembled "; nothing\n\n" { State.reset with pc := 0x8002, halted := true }
    (fun t rep => (t.pc, t.halted, rep.count)) = some (0x8002, false, 0) := by decide

/-- 40_assembler.md R130: the `error` setting of P10. -/
theorem test_assemble_error_policy : assembled "NOP\nFOO" { base with cfg := { defaultConfig with unresolvedLine := .error } }
    (fun t rep => (t.prog, t.mem, rep.success, rep.count, rep.unrecognised)) = some ([], [], false, 0, [2]) := by
  decide +kernel

/-- 40_assembler.md R125: the `diagnostic` setting of P11. -/
theorem test_assemble_diagnostic :
    assembled "MVI B,12G" { base with cfg := { defaultConfig with malformedNumeral := .diagnostic } }
      (fun t rep => (t.prog.map Record.val, rep.malformed)) = some ([0], [1]) := by decide

/-- Parameter P4 in `assemble`: MVI A under another byte. -/
theorem test_assemble_opcode_setting :
    assembled "MVI A,5" { base with cfg := { defaultConfig with opcode := [(0x3E, 0x08)] } }
      (fun t _ => (t.mem, t.prog.map fun r => (r.opcode, r.instr)))
      = some ([(0x8000, 0x08), (0x8001, 0x05)], [(0x08, .mviA 5)]) := by decide

/-- Parameter P9: a listed text reads as the setting says, the others as the strict grammar does. -/
theorem test_assemble_numeral_setting :
    assembled "MVI A,0x10
MVI B,17" { base with cfg := { defaultConfig with numerals := ⟨[], [(text "0x10", some 16)]⟩ } }
      (fun t rep => (t.prog.map Record.val, rep.malformed)) = some ([16, 17], []) := by decide

/-! ### Witnesses -/

theorem witness_DecodeOfEncodeIsTheInstruction :
    (Instr.jnz 0x8002).wf = true := rfl

theorem witness_DecodeAcceptsOnlyEncodings :
    decode [0x3E, 0x05, 0x00] = .ok (.mviA 0x05, [0x00]) := rfl

theorem witness_StepKeepsTheInvariant :
    (placed 0x78).wf = true ∧ ∃ t, step (placed 0x78) = .next t := ⟨by decide, _, rfl⟩

theorem witness_AssembleEstablishesTheInvariant :
    base.mem.wf = true ∧ ∃ t rep, assembleWith strictNumerals (text "NOP") base = .next (t, rep) := ⟨rfl, _, _, rfl⟩

theorem witness_HostOperationsKeepTheInvariant :
    (placed 0x78).wf = true ∧ ∃ t res, hostApply (.setMemory 0x9000 1) (placed 0x78) = .next (t, res) := ⟨by decide, _, _, rfl⟩

/-- The clause of P7 = `record`. -/
theorem witness_StepRunsTheRecordAtPC :
    (placed 0x013E).halted = false ∧ (placed 0x013E).cfg.operandSource = .record
    ∧ (∃ r, (placed 0x013E).prog.find? (fun q => q.address == (placed 0x013E).pc) = some r
      ∧ (0x01 : Byte) = BitVec.ofNat 8 (r.val.toNat % 256)
      ∧ decode [r.instr.form.opcode, 0x01, 0x00] = .ok (.mviA 0x01, [0x00]))
    ∧ (placed 0x013E).wf = true ∧ (placed 0x013E).cfg.opcode = [] := 
  ⟨rfl, rfl, ⟨_, rfl, rfl, rfl⟩, by decide, rfl⟩

/-- The clause of P7 = `memory`. -/
theorem witness_StepRunsTheRecordAtPC_memory :
    ∀ s : State, s = { setMemory (placed 0x013E) 0x8001 0x99 with cfg := { defaultConfig with operandSource := .memory } } →
      s.halted = false ∧ s.cfg.operandSource = .memory ∧ (0x99 : Byte) = s.mem.read (s.pc + 1)
      ∧ ∃ r, s.prog.find? (fun q => q.address == s.pc) = some r 
        ∧ decode [r.instr.form.opcode, 0x99, 0x00] = .ok (.mviA 0x99, [0x00]) := by
  rintro s rfl
  exact ⟨rfl, rfl, rfl, _, rfl, rfl⟩

theorem witness_StepsThatExecuteNothing :
    { base with halted := true }.halted = true
    ∧ (noRecordAtPC (withMem [(0x8000, 0x76)]) ∧ (withMem [(0x8000, 0x76)]).mem.read 0x8000 = 0x76)
    ∧ (noRecordAtPC base ∧ base.mem.read 0x8000 ≠ 0x76 ∧ base.halted = false) := 
  ⟨rfl, ⟨(fun _ h => nomatch h), rfl⟩, (fun _ h => nomatch h), by decide, rfl⟩

theorem witness_StepFailsOnlyAtTheFetch :
    step base = .fault .stepFailure ∧ ∃ t, step (placed 0x78) = .next t := ⟨rfl, _, rfl⟩

/-- NOP moved to a byte of its own. -/
theorem witness_OpcodeTableIsABijection :
    Config.wf { defaultConfig with opcode := [(0x00, 0x08)] } = true := by decide +kernel

theorem witness_HaltTransitions_in :
    (placed 0x76).wf = true ∧ (placed 0x76).halted = false ∧ HostOp.step ≠ .tick
    ∧ (∃ t res, hostApply .step (placed 0x76) = .next (t, res) ∧ t.halted = true)
    ∧ (∃ t res, hostApply .stop (placed 0x78) = .next (t, res) ∧ t.halted = true)
    ∧ (∃ t res, hostApply .step (placed 0x78) = .next (t, res) ∧ t.halted = false) := 
  ⟨by decide, rfl, nofun, ⟨_, _, rfl, rfl⟩, ⟨_, _, rfl, rfl⟩, _, _, rfl, rfl⟩

theorem witness_HaltTransitions_out :
    (hostStop base).wf = true ∧ (hostStop base).halted = true
    ∧ (∃ t res, hostApply .reset (hostStop base) = .next (t, res) ∧ t.halted = false)
    ∧ (∃ t res, hostApply .step (hostStop base) = .next (t, res) ∧ t.halted = true) := 
  ⟨by decide, rfl, ⟨_, _, rfl, rfl⟩, _, _, rfl, rfl⟩

theorem witness_OnlyAssembleAndResetWriteTheTables :
    (∃ t, step (placed 0x78) = .next t) ∧ ∃ t res, hostApply .tick (placed 0x78) = .next (t, res) := 
  ⟨⟨_, rfl⟩, _, _, rfl⟩

theorem witness_StoresNeverChangeWhatExecutes :
    (placed 0x78).cfg.operandSource = .record ∧ ∃ r ∈ (placed 0x78).prog, r.address = (placed 0x78).pc := 
  ⟨rfl, _, List.mem_cons_self, rfl⟩

theorem witness_EachStepChargesOneCost :
    (∃ t, step (placed 0x78) = .next t ∧ fetch (placed 0x78) = .run .movAB) ∧ stepReturns base = false
    ∧ (∃ t res, hostApply .snapshot base = .next (t, res))
    ∧ base.cfg.tstateWidth = none ∧ ∃ t res, hostApply (.run 3) (placed 0x78) = .next (t, res) := 
  ⟨⟨_, rfl, rfl⟩, rfl, ⟨_, _, rfl⟩, rfl, _, _, rfl⟩

theorem witness_TimingHasNoEffectOnFunction :
    sameButTiming base { base with tStates := 7, cfg := { base.cfg with tstateWidth := some 8 } } := rfl

theorem witness_NoCodeBelowTheLoadAddress :
    ∀ s : State, s = { withMem [(0x7FFF, 0x76)] with pc := 0x7FFF } →
      s.wf = true ∧ s.halted = false ∧ s.pc.toNat < 0x8000 ∧ s.mem.read s.pc = 0x76 := by
  rintro s rfl
  exact ⟨by decide, rfl, by decide, rfl⟩

theorem witness_RegisterFrame :
    (∃ t, exec .addB base = .next t) ∧ Reg.B ∉ destinations Instr.addB.form ∧ mayWriteSP Instr.addB.form = false
    ∧ Reg.A ∉ destinations Instr.cmpB.form := 
  ⟨⟨_, rfl⟩, by decide, rfl, by decide⟩

theorem witness_FlagFrame :
    (∃ t, exec .inrB base = .next t) ∧ flagsWritten Instr.inrB.form = .allButCarry
    ∧ flagsWritten Instr.dadB.form = .carryOnly ∧ flagsWritten Instr.cma.form = .none := ⟨⟨_, rfl⟩, rfl, rfl, rfl⟩

theorem witness_MemoryFrame :
    (∃ t, exec .pushB base = .next t) ∧ (0xFFFF : Word) ∉ storedAddresses Instr.pushB.form base
    ∧ (0xFFFE : Word) ∈ storedAddresses Instr.pushB.form base := ⟨⟨_, rfl⟩, by decide, by decide⟩

theorem witness_MovCopies :
    Instr.movAB.form = .mov (.reg .A) (.reg .B) ∧ Instr.movAM.form = .mov (.reg .A) .mem
    ∧ Instr.movMA.form = .mov .mem (.reg .A) := ⟨rfl, rfl, rfl⟩

theorem witness_ImmediateLoads :
    (Instr.mviA 0xFF).form = .mvi (.reg .A) 0xFF ∧ (Instr.mviM 0xFF).form = .mvi .mem 0xFF
    ∧ (Instr.lxiH 0xFFFF).form = .lxi (.pair .HL) 0xFFFF ∧ (Instr.lxiSP 0xFFFF).form = .lxi .sp 0xFFFF := ⟨rfl, rfl, rfl, rfl⟩

theorem witness_AdditionsComputeSumAndFlags :
    (Instr.addM.form = .alu .add .mem ∧ base.readOpnd .mem = 0x00) ∧ (Instr.adcB.form = .alu .adc (.reg .B))
    ∧ (Instr.adi 0xFF).form = .alui .add 0xFF ∧ (Instr.aci 0xFF).form = .alui .adc 0xFF := ⟨⟨rfl, rfl⟩, rfl, rfl, rfl⟩

theorem witness_SubtractionsComputeDifferenceAndFlags :
    Instr.subB.form = .alu .sub (.reg .B) ∧ Instr.sbbM.form = .alu .sbb .mem ∧ Instr.cmpA.form = .alu .cmp (.reg .A)
    ∧ (Instr.sui 0xFF).form = .alui .sub 0xFF ∧ (Instr.sbi 0xFF).form = .alui .sbb 0xFF
    ∧ (Instr.cpi 0xFF).form = .alui .cmp 0xFF := 
  ⟨rfl, rfl, rfl, rfl, rfl, rfl⟩

theorem witness_IncrementsAndDecrementsKeepCarry :
    (base.readOpnd (.reg .B) = 0x00 ∧ Instr.dcrB.form = .dcr (.reg .B) ∧ BitVec.ofNat 8 (0 + 255) = (0xFF : Byte))
    ∧ Instr.inrM.form = .inr .mem := ⟨⟨rfl, rfl, rfl⟩, rfl⟩

theorem witness_PairCountsWrapAndKeepFlags :
    Instr.inxB.form = .inx (.pair .BC) ∧ Instr.inxSP.form = .inx .sp ∧ Instr.dcxH.form = .dcx (.pair .HL)
    ∧ Instr.dcxSP.form = .dcx .sp := ⟨rfl, rfl, rfl, rfl⟩

theorem witness_DadAddsToHL :
    Instr.dadH.form = .dad (.pair .HL) ∧ Instr.dadSP.form = .dad .sp := ⟨rfl, rfl⟩

theorem witness_DaaCorrectsBothNibbles :
    ∀ s : State, s = { base with a := 0x9A } →
      true = (decide (9 < s.a.toNat % 16) || s.flags.ac)
      ∧ true = (decide (9 < s.a.toNat / 16) || s.flags.cy || (decide (9 ≤ s.a.toNat / 16) && decide (9 < s.a.toNat % 16)))
      ∧ 0x66 = (if true then 6 else 0) + (if true then 96 else 0) := by
  rintro s rfl
  exact ⟨rfl, rfl, rfl⟩

theorem witness_DaaGivesTheDecimalSum :
    (Instr.aci 0x99).form = .alui .adc 0x99 ∧ isBcd { base with a := 0x99 }.a ∧ isBcd 0x99 ∧ isBcd 0x00
    ∧ Instr.addB.form = .alu .add (.reg .B) := 
  ⟨rfl, ⟨by decide, by decide⟩, ⟨by decide, by decide⟩, ⟨by decide, by decide⟩, rfl⟩

theorem witness_BooleanOperationsClearCarries :
    (Instr.anaB.form = .alu .ana (.reg .B) ∧ base.b &&& 0xFF = 0x00) ∧ (Instr.xri 0xFF).form = .alui .xra 0xFF
    ∧ Instr.oraM.form = .alu .ora .mem := ⟨⟨rfl, rfl⟩, rfl, rfl⟩

/-- Every condition is met by one of two flag registers and not met by the other. -/
theorem witness_JumpsGoToTheirTarget :
    (Instr.jmp 0xFFFF).form = .jmp 0xFFFF ∧ (Instr.jz 0xFFFF).form = .jcc .Z 0xFFFF
    ∧ (∀ c, conditionTrue c (flg 0 0 0 0 0) ∨ conditionTrue c (flg 1 1 1 1 1))
    ∧ (∀ c, ¬ conditionTrue c (flg 0 0 0 0 0) ∨ ¬ conditionTrue c (flg 1 1 1 1 1)) := by
  refine ⟨rfl, rfl, ?_, ?_⟩ <;> intro c <;> cases c <;> simp [conditionTrue, flg]

theorem witness_CallsPushTheFallThroughAddress :
    (Instr.call 0xFFFF).form = .call 0xFFFF ∧ (Instr.cpo 0xFFFF).form = .ccc .PO 0xFFFF := ⟨rfl, rfl⟩

theorem witness_ReturnsPopTheirTarget :
    Instr.ret.form = .ret ∧ Instr.rm.form = .rcc .M := ⟨rfl, rfl⟩

theorem witness_RestartsCallEightTimesN :
    Instr.rst0.form = .rst 0 ∧ Instr.rst7.form = .rst 7 := ⟨rfl, rfl⟩

theorem witness_PushStoresTheWord :
    Instr.pushB.form = .push (.pair .BC) ∧ Instr.pushPSW.form = .push .psw := ⟨rfl, rfl⟩

theorem witness_PopLoadsTheWord :
    Instr.popH.form = .pop (.pair .HL) ∧ Instr.popPSW.form = .pop .psw := ⟨rfl, rfl⟩

theorem witness_StackRoundTrips :
    Instr.pushH.form = .push (.pair .HL) ∧ Instr.popD.form = .pop (.pair .DE) ∧ Pair.BC ≠ .DE := ⟨rfl, rfl, nofun⟩

theorem witness_NoOperationsOnlyAdvance :
    Instr.rim ∈ [Instr.nop, .ei, .di, .rim, .sim] := by decide

theorem witness_AssembleLeavesTheRestAlone :
    (∃ t rep, assembleWith strictNumerals (text "NOP") base = .next (t, rep) ∧ t.prog ≠ [])
    ∧ (∃ t rep, assembleWith strictNumerals (text "") base = .next (t, rep) ∧ t.prog = [] ∧ rep.success = true)
    ∧ base.cfg.unresolvedLine = .tolerate
    ∧ ∃ t rep, assembleWith strictNumerals (text "FOO") { base with cfg := { base.cfg with unresolvedLine := .error } }
        = .next (t, rep) ∧ rep.success = false := 
  ⟨⟨_, _, rfl, nofun⟩, ⟨_, _, rfl, rfl, rfl⟩, rfl, _, _, rfl, rfl⟩

theorem witness_AssembledBytesMatchTheRecords :
    ∃ t rep, assembleWith strictNumerals (text "MVI A,5") base = .next (t, rep)
      ∧ ∃ r ∈ t.prog, r.instr = .mviA 5 ∧ (encodeWith base.cfg r.instr)[1]? = some 0x05 := 
  ⟨_, _, rfl, _, List.mem_cons_self, rfl, rfl⟩

theorem witness_OperandSourcesAgreeOnUnwrittenCode :
    ∀ r ∈ (placed 0x013E).prog, operandBytesIntact (placed 0x013E).mem r := by
  intro r hr
  have hp : (placed 0x013E).prog = [⟨0x8000, text "MVI", [text "A", text "00001H"], 0x3E, .mviA 1, 1⟩] := by decide
  rw [hp, List.mem_singleton] at hr
  subst hr
  rintro (_ | k) b hb
  · cases hb; rfl
  · cases k <;> cases hb

theorem witness_PassesAgree :
    (parseLine 2 (text "L: NOP")).label ≠ [] ∧ ∀ q ∈ [parseLine 3 (text "M: NOP")], q.label ≠ (parseLine 2 (text "L: NOP")).label := by decide

theorem witness_RunEndsInOneOfThreeWays :
    (hostRun 5 (placed 0x78)).2.2 = .failed ∧ (hostRun 0 (placed 0x78)).2.2 = .ceiling
    ∧ (hostRun 1 (placed 0x76)).2.2 = .halted := by decide

end Sys2Proof.Tests
end

section
/-! SUPPORT. The facts about the state that the claims of 10_state.md rest on: its registers and pairs, its invariant, what
`assemble` makes of it, and what no step writes; with the claims themselves. -/

namespace Sys2Proof.Machine

open Sys2Proof.Claims

/-! ### Pairs -/

theorem pair_toNat (s : State) (p : Pair) :
    (s.pair p).toNat = (s.reg (Pair.hi p)).toNat * 256 + (s.reg (Pair.lo p)).toNat :=
  mkWord_toNat _ _

/-- A pair written reads back (10_state.md R23). -/
@[simp] theorem pair_setPair_same (s : State) (p : Pair) (v : Word) : (s.setPair p v).pair p = v := by
  have hne : Pair.lo p ≠ Pair.hi p := by cases p <;> decide
  simp [State.pair, reg_setPair, hne]

/-- Settles O8: a pair is the word of its two registers. -/
theorem pairsAreViewsOfTwoRegisters : Obligations.PairsAreViewsOfTwoRegisters := fun s v =>
  ⟨pair_toNat s .BC, pair_toNat s .DE, pair_toNat s .HL, rfl, rfl, rfl, fun p => pair_setPair_same s p v⟩

/-! ### The flag byte -/

/-- The three bits of the flag byte that hold no flag (10_state.md R28). -/
theorem flagByte_fixed_bits (f : Flags) :
    (flagByte f).getLsbD 1 = true ∧ (flagByte f).getLsbD 3 = false ∧ (flagByte f).getLsbD 5 = false := by
  obtain ⟨s, z, ac, p, cy⟩ := f
  revert s z ac p cy
  decide

/-- The low byte of the word on top of the stack is the byte at SP (20_memory.md R57). -/
@[simp] theorem loByte_popValue (s : State) : loByte s.popValue = s.mem.read s.sp := loByte_mkWord _ _

/-- The low byte of PSW is the flag byte (10_state.md R24). -/
@[simp] theorem loByte_psw (s : State) : loByte s.psw = flagByte s.flags := loByte_mkWord _ _

/-- Settles O9: the byte flag by flag, then one PUSH PSW and one POP PSW through the stack's laws. -/
theorem flagByteLayout : Obligations.FlagByteLayout := by
  refine ⟨fun f => ?_, fun s => ⟨?_, ?_⟩⟩
  · obtain ⟨h1, h3, h5⟩ := flagByte_fixed_bits f
    exact ⟨flagByte_toNat f, h1, h3, h5, unpackFlags_flagByte f⟩
  · refine ⟨_, exec_of_form rfl s, ?_⟩
    calc (s.push16 s.psw).mem.read (s.sp - 2) = loByte s.psw := read_write_same _ _ _
      _ = flagByte s.flags := loByte_psw s
  · refine ⟨_, exec_of_form rfl s, ?_⟩
    exact congrArg unpackFlags (loByte_popValue s)

/-! ### The invariant -/

theorem State.wf_iff {s : State} :
    s.wf = true ↔ s.mem.wf = true ∧ progWf s.cfg s.prog = true ∧ labelsWf s.labels = true := by
  simp only [State.wf, Bool.and_eq_true, and_assoc]

theorem hostReset_wf (s : State) : (hostReset s).wf = true := State.wf_iff.2 ⟨reset_mem_wf, rfl, rfl⟩

/-- Settles O11: memory, program table and label table are empty after reset. -/
theorem resetMeetsTheInvariant : Obligations.ResetMeetsTheInvariant := ⟨hostReset_wf State.reset, hostReset_wf⟩

/-! ### The assembler and the invariant -/

/-- The state the `error` policy leaves has empty tables. -/
theorem clearForAssembly_wf {s : State} (h : s.mem.wf = true) : s.clearForAssembly.wf = true :=
  State.wf_iff.2 ⟨h, rfl, rfl⟩

/-- The program table of an assembly is the records of its lines from the load address up (40_assembler.md R128). -/
theorem assembleLines_prog (num : Numerals) (lns : List Line) (s : State) :
    (assembleLines num lns s).1.prog = lineRecords s.cfg num (pass1 loadAddress [] lns).1 loadAddress lns :=
  pass2_prog s.cfg num _ (emptyImage s.mem) lns

/-- Both passes over numbered lines that fit keep memory canonical and make well-formed tables (10_state.md R36, R38). -/
theorem assembleLines_wf {num : Numerals} {lns : List Line} {s : State} (hmem : s.mem.wf = true)
    (hclean : ∀ ln ∈ lns, ln.clean) (hnum : numberedAfter 0 lns) (hfit : loadAddress + totalLength lns ≤ 0x10000) :
    (assembleLines num lns s).1.wf = true := by
  refine State.wf_iff.2 ⟨?_, ?_, ?_⟩
  · exact pass2_wf (img := emptyImage s.mem) hmem s.cfg num _ lns
  · rw [assembleLines_prog]
    exact lineRecords_wf s.cfg num _ lns loadAddress 0 hclean hnum hfit
  · exact pass1_labels_wf loadAddress (labels := []) rfl lns

/-- Settles O13: an accepted assembly either cleared the tables or ran both passes over an image that fits. -/
theorem assembleEstablishesTheInvariant : Obligations.AssembleEstablishesTheInvariant := by
  intro num txt s t rep hmem h
  rcases assembleWith_cases h with ⟨-, rfl, -⟩ | ⟨hfit, hlines⟩
  · exact clearForAssembly_wf hmem
  · have ht : t = (assembleLines num (sourceLines txt) s).1 := congrArg Prod.fst hlines
    rw [ht]
    exact assembleLines_wf hmem (sourceLines_clean txt) (sourceLines_numbered txt) hfit

/-! ### What no step writes -/

/-- `t` has the program table, the label table and the configuration of `s`. -/
def SameTables (s t : State) : Prop := t.prog = s.prog ∧ t.labels = s.labels ∧ t.cfg = s.cfg

theorem SameTables.refl (s : State) : SameTables s s := ⟨rfl, rfl, rfl⟩

theorem SameTables.trans {s t u : State} (h : SameTables s t) (h' : SameTables t u) : SameTables s u := by
  obtain ⟨hp, hl, hc⟩ := h
  obtain ⟨hp', hl', hc'⟩ := h'
  exact ⟨hp'.trans hp, hl'.trans hl, hc'.trans hc⟩

/-- No instruction writes the tables. -/
theorem committedState_sameTables (i : Instr) (s : State) : SameTables s (committedState i s) := by
  obtain ⟨hprog, hlabels, hcfg, -, -⟩ := stage_keeps i.form (fallThrough i s) s
  exact ⟨hprog, hlabels, hcfg⟩

theorem enterHalt_sameTables (s : State) : SameTables s s.enterHalt :=
  ⟨enterHalt_prog s, enterHalt_labels s, enterHalt_cfg s⟩

theorem setMemory_sameTables (s : State) (address value : Int) : SameTables s (setMemory s address value) :=
  ⟨store8_prog s _ _, store8_labels s _ _, store8_cfg s _ _⟩

/-- A step writes neither table: not when it is refused, not in an instruction, not in the halt on a raw byte. -/
theorem step_sameTables {s t : State} (h : step s = .next t) : SameTables s t := by
  rcases step_next_cases h with ⟨-, rfl⟩ | ⟨i, -, rfl⟩ | ⟨-, rfl⟩
  · exact .refl t
  · exact committedState_sameTables i s
  · exact enterHalt_sameTables s

/-- Settles O19: every host operation but `assemble` and `reset` is made of steps, the stop request and stores. -/
theorem onlyAssembleAndResetWriteTheTables : Obligations.OnlyAssembleAndResetWriteTheTables := by
  refine ⟨fun s t => step_sameTables, fun op s t res h hreset hassemble => ?_⟩
  exact hostApply_induction (P := SameTables) .refl (fun _ _ _ => .trans) (fun _ _ => step_sameTables)
    enterHalt_sameTables setMemory_sameTables h hreset hassemble

/-! ### The registers a state update leaves -/

theorem setReg_reg_other {r q : Reg} (h : q ≠ r) (s : State) (v : Byte) : (s.setReg r v).reg q = s.reg q := by
  rw [reg_setReg, if_neg h]

theorem setAF_reg_other {r : Reg} (h : r ≠ .A) (s : State) (x : Byte × Flags) : (s.setAF x).reg r = s.reg r := by
  cases r with
  | A => exact absurd rfl h
  | _ => rfl

theorem setACy_reg_other {r : Reg} (h : r ≠ .A) (s : State) (x : Byte × Bool) : (s.setACy x).reg r = s.reg r := by
  cases r with
  | A => exact absurd rfl h
  | _ => rfl

theorem setPair_reg_other {r : Reg} {p : Pair} (h : r ∉ pairRegisters p) (s : State) (v : Word) :
    (s.setPair p v).reg r = s.reg r := by
  have hhi : r ≠ Pair.hi p := by rintro rfl; cases p <;> simp [pairRegisters, Pair.hi] at h
  have hlo : r ≠ Pair.lo p := by rintro rfl; cases p <;> simp [pairRegisters, Pair.lo] at h
  rw [reg_setPair, if_neg hhi, if_neg hlo]

theorem setRp_reg_other {r : Reg} {p : Rp} (h : r ∉ rpRegisters p) (s : State) (v : Word) : (s.setRp p v).reg r = s.reg r := by
  cases p with
  | pair p => exact setPair_reg_other h s v
  | sp => cases r <;> rfl

theorem setPsw_reg_other {r : Reg} (h : r ≠ .A) (s : State) (w : Word) : (s.setPsw w).reg r = s.reg r := by
  cases r with
  | A => exact absurd rfl h
  | _ => rfl

theorem setRq_reg_other {r : Reg} {q : Rq} (h : r ∉ rqRegisters q) (s : State) (w : Word) : (s.setRq q w).reg r = s.reg r := by
  cases q with
  | pair p => exact setPair_reg_other h s w
  | psw => exact setPsw_reg_other (by simpa [rqRegisters] using h) s w

theorem writeOpnd_reg_other {r : Reg} {o : Opnd} (h : r ∉ operandRegister o) (s : State) (v : Byte) :
    (s.writeOpnd o v).reg r = s.reg r := by
  cases o with
  | reg q => exact setReg_reg_other (by simpa [operandRegister] using h) s v
  | mem => exact store8_reg s _ v r

/-- An ALU result leaves every register but A, and a compare's leaves A too (44_arithmetic.md R224, R229). -/
theorem setAF_aluResult_reg_other {r : Reg} {op : AluOp} (h : r ∉ if op = .cmp then [] else [Reg.A]) (s : State)
    (reading : AcSub) (v : Byte) (f : Flags) : (s.setAF (aluResult reading op s.a v f)).reg r = s.reg r := by
  by_cases hA : r = .A
  · subst hA
    have hop : op = .cmp := by by_contra hne; simp [hne] at h
    subst hop; rfl
  · exact setAF_reg_other hA s _

/-- What holds of the old state and after the taken stage holds after a conditional one (46_branch.md R300). -/
theorem conditional_keeps {P : State → Prop} {c : State → Bool} {taken : Stage} {next : Word} {s : State} (hold : P s)
    (htaken : P (taken next s).st) : P (conditional c taken next s).st := by
  rcases conditional_cases c taken next s with ⟨-, h⟩ | ⟨-, h⟩ <;> rw [h]
  · exact htaken
  · exact hold

/-- A register that no rule names as a destination keeps its value through the execute stage (10_state.md R22). -/
theorem stage_keeps_reg {f : Form} {r : Reg} (h : r ∉ destinations f) (next : Word) (s : State) :
    (stageOf f next s).st.reg r = s.reg r := by
  cases f with
  | mov d o => exact writeOpnd_reg_other h s _
  | mvi d v => exact writeOpnd_reg_other h s v
  | inr d => exact (setFlags_reg _ _ r).trans (writeOpnd_reg_other h s _)
  | dcr d => exact (setFlags_reg _ _ r).trans (writeOpnd_reg_other h s _)
  | lxi p v => exact setRp_reg_other h s v
  | inx p => exact setRp_reg_other h s _
  | dcx p => exact setRp_reg_other h s _
  | dad p => exact (setFlags_reg _ _ r).trans (setPair_reg_other (p := .HL) h s _)
  | lhld a => exact setPair_reg_other (p := .HL) h s _
  | xthl => exact (setPair_reg_other (p := .HL) h _ _).trans (store16_reg s _ _ r)
  | pop q => exact (setRq_reg_other h _ _).trans (popSp_reg s r)
  | alu op o => exact setAF_aluResult_reg_other h s _ _ _
  | alui op v => exact setAF_aluResult_reg_other h s _ _ _
  | daa => exact setAF_reg_other (List.ne_of_not_mem_cons h) s _
  | lda a | ldax p | cma => exact setReg_reg_other (List.ne_of_not_mem_cons h) s _
  | rlc | rrc | ral | rar => exact setACy_reg_other (List.ne_of_not_mem_cons h) s _
  | xchg =>
    cases r with
    | A | B | C => rfl
    | D | E | H | L => simp [destinations] at h
  | sta a => exact store8_reg s _ _ r
  | stax p => exact store8_reg s _ _ r
  | shld a => exact store16_reg s _ _ r
  | push q => exact push16_reg s _ r
  | call a => exact push16_reg s _ r
  | rst n => exact push16_reg s _ r
  | ret => exact popSp_reg s r
  | jcc c a => exact conditional_keeps (P := fun t => t.reg r = s.reg r) rfl rfl
  | ccc c a => exact conditional_keeps (P := fun t => t.reg r = s.reg r) rfl (push16_reg s _ r)
  | rcc c => exact conditional_keeps (P := fun t => t.reg r = s.reg r) rfl (popSp_reg s r)
  | cmc | stc => exact setFlags_reg s _ r
  | hlt => exact enterHalt_reg s r
  | sphl => cases r <;> rfl
  | jmp a | pchl | nop | ei | di | rim | sim | inPort p | outPort p => rfl

theorem setRp_sp_of_ne {p : Rp} (h : p ≠ .sp) (s : State) (v : Word) : (s.setRp p v).sp = s.sp := by
  cases p with
  | pair p => exact setPair_sp s p v
  | sp => contradiction

/-- SP keeps its value through the execute stage of every form that R26 does not list (10_state.md R26). -/
theorem stage_keeps_sp {f : Form} (h : mayWriteSP f = false) (next : Word) (s : State) :
    (stageOf f next s).st.sp = s.sp := by
  cases f with
  | lxi p v => exact setRp_sp_of_ne (of_decide_eq_false h) s v
  | inx p => exact setRp_sp_of_ne (of_decide_eq_false h) s _
  | dcx p => exact setRp_sp_of_ne (of_decide_eq_false h) s _
  | jcc c a => exact conditional_keeps (P := fun t => t.sp = s.sp) rfl rfl
  | sphl | push q | pop q | call a | ccc c a | ret | rcc c | rst n => cases h
  | mov d o => exact writeOpnd_sp s d _
  | mvi d v => exact writeOpnd_sp s d v
  | inr d => exact writeOpnd_sp s d _
  | dcr d => exact writeOpnd_sp s d _
  | _ => rfl

/-- The commit writes no register. -/
theorem committedState_reg (i : Instr) (s : State) (r : Reg) :
    (committedState i s).reg r = (stageOf i.form (fallThrough i s) s).st.reg r := by
  cases r <;> rfl

/-- Settles O26: what the stage of the instruction's form leaves, the commit leaves. -/
theorem registerFrame : Obligations.RegisterFrame := by
  intro i s t h
  rw [← exec_next_iff.1 h]
  exact ⟨fun r hr => (committedState_reg i s r).trans (stage_keeps_reg hr _ s), fun hsp => stage_keeps_sp hsp _ s⟩

end Sys2Proof.Machine
end

section
/-! SUPPORT. The facts about memory and the fetch that the claims of 20_memory.md rest on: what a store leaves, what a step
keeps of the invariant, and what the fetch reads; with the claims themselves. -/

namespace Sys2Proof.Machine

open Sys2Proof.Claims

/-! ### A step and the invariant -/

/-- The commit writes no memory. -/
theorem committedState_mem (i : Instr) (s : State) :
    (committedState i s).mem = (stageOf i.form (fallThrough i s) s).st.mem := rfl

/-- A step leaves memory in its canonical form (20_memory.md R50). -/
theorem step_keeps_memory_wf {s t : State} (hmem : s.mem.wf = true) (h : step s = .next t) : t.mem.wf = true := by
  rcases step_next_cases h with ⟨-, rfl⟩ | ⟨i, -, rfl⟩ | ⟨-, rfl⟩
  · exact hmem
  · exact stage_keeps_memory_wf i.form (fallThrough i s) hmem
  · exact hmem

/-- With the tables unchanged, the invariant is memory's canonical form alone. -/
theorem SameTables.wf {s t : State} (hsame : SameTables s t) (hs : s.wf = true) (hmem : t.mem.wf = true) : t.wf = true := by
  obtain ⟨hprog, hlabels, hcfg⟩ := hsame
  obtain ⟨-, hprogWf, hlabelsWf⟩ := State.wf_iff.1 hs
  refine State.wf_iff.2 ⟨hmem, ?_, ?_⟩
  · rw [hcfg, hprog]; exact hprogWf
  · rw [hlabels]; exact hlabelsWf

/-- Settles O12: a step writes no table and leaves memory canonical. -/
theorem stepKeepsTheInvariant : Obligations.StepKeepsTheInvariant := by
  intro s t hs h
  obtain ⟨hmem, -, -⟩ := State.wf_iff.1 hs
  exact (step_sameTables h).wf hs (step_keeps_memory_wf hmem h)

/-! ### The bytes a store leaves -/

/-- A one-byte store leaves every byte but the one at its address (20_memory.md R52). -/
theorem store8_read_other {x b : Word} (h : b ∉ [x]) (s : State) (v : Byte) :
    (s.store8 x v).mem.read b = s.mem.read b :=
  read_write_other _ v (List.ne_of_not_mem_cons h)

/-- A two-byte store leaves every byte but the two at its addresses (20_memory.md R55). -/
theorem store16_read_other {x b : Word} (h : b ∉ [x, x + 1]) (s : State) (v : Word) :
    (s.store16 x v).mem.read b = s.mem.read b := by
  simp only [List.mem_cons, List.not_mem_nil, or_false, not_or] at h
  obtain ⟨hlo, hhi⟩ := h
  rw [store16_mem, read_writeWord, if_neg hhi, if_neg hlo]

/-- A push leaves every byte but the two below SP (20_memory.md R57). -/
theorem push16_read_other {s : State} {b : Word} (h : b ∉ [s.sp - 1, s.sp - 2]) (v : Word) :
    (s.push16 v).mem.read b = s.mem.read b := by
  simp only [List.mem_cons, List.not_mem_nil, or_false, not_or] at h
  obtain ⟨hhi, hlo⟩ := h
  rw [read_push16, if_neg hlo, if_neg hhi]

/-- Writing an operand leaves every byte but the one at HL when the operand is M (30_encoding.md R74). -/
theorem writeOpnd_read_other {s : State} {o : Opnd} {b : Word} (h : b ∉ operandAddress o s) (v : Byte) :
    (s.writeOpnd o v).mem.read b = s.mem.read b := by
  cases o with
  | reg r => exact congrArg (Memory.read · b) (setReg_mem s r v)
  | mem => exact store8_read_other h s v

/-- LDAX and STAX name their pair, which the claims write again (43_data_transfer.md R210, R211). -/
theorem storedAddresses_stax (p : IndPair) (s : State) : storedAddresses (.stax p) s = [s.indirect p] := by
  cases p <;> rfl

/-- A conditional call whose condition holds stores where a push does (46_branch.md R300). -/
theorem storedAddresses_ccc_taken {c : Cond} {s : State} (h : condHolds s.flags c = true) (target : Word) :
    storedAddresses (.ccc c target) s = [s.sp - 1, s.sp - 2] := if_pos h

/-- The execute stage of every form leaves each byte outside the addresses the form stores to (20_memory.md R53). -/
theorem stage_keeps_byte {f : Form} {s : State} {b : Word} (h : b ∉ storedAddresses f s) (next : Word) :
    (stageOf f next s).st.mem.read b = s.mem.read b := by
  cases f with
  | mov d o => exact writeOpnd_read_other h _
  | mvi d v => exact writeOpnd_read_other h v
  | inr d => exact writeOpnd_read_other h _
  | dcr d => exact writeOpnd_read_other h _
  | sta x => exact store8_read_other h s _
  | stax p => exact store8_read_other (storedAddresses_stax p s ▸ h) s _
  | shld x => exact store16_read_other h s _
  | xthl => exact store16_read_other h s _
  | push q => exact push16_read_other h _
  | call x => exact push16_read_other h _
  | rst n => exact push16_read_other h _
  | ccc c x =>
    rcases conditional_cases (fun s => condHolds s.flags c) (opCall x) next s with ⟨hc, heff⟩ | ⟨-, heff⟩
    · rw [storedAddresses_ccc_taken hc] at h
      calc (opCcc c x next s).st.mem.read b = (s.push16 next).mem.read b := by rw [opCcc, heff]; rfl
        _ = s.mem.read b := push16_read_other h next
    · exact congrArg (Memory.read ·.st.mem b) heff
  | jcc c x => exact conditional_keeps (P := fun t => t.mem.read b = s.mem.read b) rfl rfl
  | rcc c => exact conditional_keeps (P := fun t => t.mem.read b = s.mem.read b) rfl rfl
  | lxi p v => exact congrArg (Memory.read · b) (setRp_mem s p v)
  | inx p => exact congrArg (Memory.read · b) (setRp_mem s p _)
  | dcx p => exact congrArg (Memory.read · b) (setRp_mem s p _)
  | pop q => exact congrArg (Memory.read · b) (setRq_mem s.popSp q _)
  | lda x | lhld x | ldax p | xchg | alu op o | alui op v | dad p | daa | rlc | rrc | ral | rar | cma | cmc | stc | jmp x
  | ret | pchl | sphl | nop | ei | di | rim | sim | inPort n | outPort n | hlt => rfl

/-- Settles O28: what the stage of the instruction's form leaves, the commit leaves. -/
theorem memoryFrame : Obligations.MemoryFrame := by
  intro i s t b h hb
  rw [← exec_next_iff.1 h, committedState_mem]
  exact stage_keeps_byte hb _

/-! ### Words -/

/-- A word read is the byte at the address and 256 times the byte at the next (20_memory.md R55). -/
theorem load16_toNat (s : State) (a : Word) :
    (s.load16 a).toNat = (s.mem.read a).toNat + 256 * (s.mem.read (a + 1)).toNat := by
  rw [State.load16, Memory.readWord, mkWord_toNat]; omega

/-- Settles O6: the bytes of a word read and the bytes after a word is stored. -/
theorem wordsAreLittleEndian : Obligations.WordsAreLittleEndian := fun s a v b =>
  ⟨load16_toNat s a, read_writeWord s.mem a v b⟩

/-! ### What the fetch reads -/

/-- States that find records of one instruction fetch alike (42_step_engine.md R163, R164). -/
theorem fetch_congr_of_record {s t : State} {r q : Record} (hhalted : t.halted = s.halted)
    (hr : findRecord s.prog s.pc = some r) (hq : findRecord t.prog t.pc = some q)
    (hinstr : recordInstr t q = recordInstr s r) : fetch t = fetch s := by
  cases hh : s.halted with
  | false => rw [fetch_of_record hh hr, fetch_of_record (hhalted.trans hh) hq, hinstr]
  | true => rw [(fetch_refused_iff s).2 hh, (fetch_refused_iff t).2 (hhalted.trans hh)]

/-- States without a record at PC fetch alike when the bytes at PC agree (42_step_engine.md R163, R164). -/
theorem fetch_congr_of_no_record {s t : State} (hhalted : t.halted = s.halted)
    (hr : findRecord s.prog s.pc = none) (hq : findRecord t.prog t.pc = none)
    (hbyte : t.load8 t.pc = s.load8 s.pc) : fetch t = fetch s := by
  cases hh : s.halted with
  | false => rw [fetch_of_no_record hh hr, fetch_of_no_record (hhalted.trans hh) hq, hbyte]
  | true => rw [(fetch_refused_iff s).2 hh, (fetch_refused_iff t).2 (hhalted.trans hh)]

/-- With P7 = `record` a record executes the instruction it names (42_step_engine.md R166). -/
theorem recordInstr_of_record {s : State} (h : s.cfg.operandSource = .record) (r : Record) : recordInstr s r = r.instr := by
  simp only [recordInstr, h]

/-- An address with a record is found. -/
theorem exists_findRecord {prog : List Record} {pc : Word} (h : ∃ r ∈ prog, r.address = pc) :
    ∃ r, findRecord prog pc = some r := by
  obtain ⟨r, hr, ha⟩ := h
  refine Option.ne_none_iff_exists'.1 fun hnone => ?_
  exact findRecord_none.1 hnone r hr ha

/-- The lookup by record reads addresses alone (42_step_engine.md R164). -/
theorem findRecord_map {f : Record → Record} (hf : ∀ r, (f r).address = r.address) (prog : List Record) (pc : Word) :
    findRecord (prog.map f) pc = (findRecord prog pc).map f := by
  simp only [findRecord, List.find?_map, Function.comp_def, hf]

/-- Under P7 = `record`, at a PC with a record, the fetch does not read memory (20_memory.md R64). -/
theorem fetch_with_mem {s : State} (hsource : s.cfg.operandSource = .record) (hrec : ∃ r ∈ s.prog, r.address = s.pc)
    (m : Memory) : fetch { s with mem := m } = fetch s := by
  obtain ⟨r, hr⟩ := exists_findRecord hrec
  refine fetch_congr_of_record rfl hr hr ?_
  rw [recordInstr_of_record hsource r]
  exact recordInstr_of_record (s := { s with mem := m }) hsource r

/-- The fetch reads no opcode byte of P4 or of a record (42_step_engine.md R165, 93_implementation_defined.md U1). -/
theorem fetch_with_opcodes (s : State) (changes : List (Byte × Byte)) (byte : Record → Byte) :
    fetch { s with
      cfg := { s.cfg with opcode := changes }
      prog := s.prog.map fun r => { r with opcode := byte r } } = fetch s := by
  have hfind := findRecord_map (f := fun r => { r with opcode := byte r }) (fun _ => rfl) s.prog s.pc
  cases hr : findRecord s.prog s.pc with
  | some r => exact fetch_congr_of_record rfl hr (hfind.trans (congrArg _ hr)) rfl
  | none => exact fetch_congr_of_no_record rfl hr (hfind.trans (congrArg _ hr)) rfl

/-- Settles O20: the record at PC names its instruction itself, and the lookup reads addresses alone. -/
theorem storesNeverChangeWhatExecutes : Obligations.StoresNeverChangeWhatExecutes :=
  ⟨fun _ m hsource hrec => fetch_with_mem hsource hrec m, fetch_with_opcodes⟩

end Sys2Proof.Machine
end

section
/-! SUPPORT. The facts about the decoder, the encoder and the opcode table that the claims of 30_encoding.md rest on, with the
claims themselves. -/

namespace Sys2Proof.Machine

/-! ### What the decoder answers -/

/-- A row of the map reads the operand bytes of each instruction it yields (30_encoding.md R70, R73). -/
theorem decode_of_yields {b : Byte} {row : OpcodeRow} {i : Instr} (hrow : decodeRow b = some row) (h : row.yields i)
    (rest : List Byte) : decode (b :: (i.form.operandBytes ++ rest)) = .ok (i, rest) := by
  cases row with
  | bare j =>
    obtain ⟨rfl, hbytes⟩ := h
    simp [decode, hrow, hbytes]
  | byteOp f =>
    obtain ⟨v, rfl, hbytes⟩ := h
    simp [decode, hrow, hbytes]
  | wordOp f =>
    obtain ⟨v, rfl, hbytes⟩ := h
    simp [decode, hrow, hbytes, wordBytes]

/-- An accepted list is an opcode byte with a row, the operand bytes of an instruction of that row, and the rest
(30_encoding.md R89). -/
theorem decode_ok_cases {bytes rest : List Byte} {i : Instr} (h : decode bytes = .ok (i, rest)) :
    ∃ b row, decodeRow b = some row ∧ row.yields i ∧ bytes = b :: (i.form.operandBytes ++ rest) := by
  cases bytes with
  | nil => cases h
  | cons b tail =>
    have hfits := decodeRow_fits b
    cases hrow : decodeRow b with
    | none => simp [decode, hrow] at h
    | some row =>
      rw [hrow] at hfits
      refine ⟨b, row, hrow, ?_⟩
      cases row with
      | bare j =>
        obtain ⟨-, hbytes, -⟩ := hfits
        obtain ⟨rfl, rfl⟩ : j = i ∧ tail = rest := by simpa [decode, hrow] using h
        exact ⟨⟨rfl, hbytes⟩, by rw [hbytes, List.nil_append]⟩
      | byteOp f =>
        obtain _ | ⟨v, tail⟩ := tail
        · simp [decode, hrow] at h
        obtain ⟨rfl, rfl⟩ : f v = i ∧ tail = rest := by simpa [decode, hrow] using h
        have hbytes := (hfits.2 v).2
        exact ⟨⟨v, rfl, hbytes⟩, by rw [hbytes, List.singleton_append]⟩
      | wordOp f =>
        obtain _ | ⟨lo, _ | ⟨hi, tail⟩⟩ := tail
        · simp [decode, hrow] at h
        · simp [decode, hrow] at h
        obtain ⟨rfl, rfl⟩ : f (mkWord hi lo) = i ∧ tail = rest := by simpa [decode, hrow] using h
        have hbytes := (hfits.2 (mkWord hi lo)).2
        exact ⟨⟨_, rfl, hbytes⟩, by simp [hbytes, wordBytes]⟩

/-- The patterns give every instruction of a row that row's byte (30_encoding.md R85). -/
theorem opcode_of_yields {b : Byte} {row : OpcodeRow} {i : Instr} (hrow : decodeRow b = some row) (h : row.yields i) :
    i.form.opcode = b := by
  have hfits := decodeRow_fits b
  rw [hrow] at hfits
  cases row with
  | bare j =>
    obtain ⟨rfl, -⟩ := h
    exact hfits.1
  | byteOp f =>
    obtain ⟨v, rfl, -⟩ := h
    exact (hfits.2 v).1
  | wordOp f =>
    obtain ⟨v, rfl, -⟩ := h
    exact (hfits.2 v).1

/-- The decoder refuses a byte as undefined exactly when the map has no row for it (30_encoding.md R87). -/
theorem decode_undefined_iff (b : Byte) (rest : List Byte) :
    decode (b :: rest) = .error (.undefinedOpcode b) ↔ decodeRow b = none := by
  unfold decode
  dsimp only
  split <;> simp [*]

/-- Settles O1: the map has the instruction's row, and that row reads the instruction's operand bytes. -/
theorem decodeOfEncodeIsTheInstruction : Obligations.DecodeOfEncodeIsTheInstruction := by
  intro i rest _
  obtain ⟨row, hrow, hyields⟩ := decodeRow_of_instr i
  exact decode_of_yields hrow hyields rest

/-- Settles O2: the row the decoder used gives both the opcode byte and the operand bytes of its answer. -/
theorem decodeAcceptsOnlyEncodings : Obligations.DecodeAcceptsOnlyEncodings := by
  intro bytes rest i h
  obtain ⟨b, row, hrow, hyields, rfl⟩ := decode_ok_cases h
  rw [encode, opcode_of_yields hrow hyields, List.cons_append]

/-! ### The ten undefined bytes -/

/-- The ten empty places of the map (30_encoding.md R86, R87). -/
theorem decodeRow_isNone_iff : ∀ b : Byte, (decodeRow b).isNone = true ↔
    b ∈ ([0x08, 0x10, 0x18, 0x28, 0x38, 0xCB, 0xD9, 0xDD, 0xED, 0xFD] : List Byte) := by decide +kernel

/-- Settles O3: the decoder calls a byte undefined at the empty places of the map, which are these ten. -/
theorem tenBytesAreNoInstruction : Obligations.TenBytesAreNoInstruction := fun b rest =>
  (decode_undefined_iff b rest).trans (Option.isNone_iff_eq_none.symm.trans (decodeRow_isNone_iff b))

/-! ### The opcode table -/

/-- Every row of the map has a key, for its instruction with the operand 0 (40_assembler.md R102). -/
theorem decodeOpcode_mem_opcodeTable :
    ∀ b : Byte, ∀ i ∈ decodeOpcode b 0, i ∈ opcodeTable.map OpcodeKey.instr := by decide +kernel

/-- Every instruction has a key: the map's row at its byte has one (30_encoding.md R85). -/
theorem exists_key (i : Instr) : ∃ k ∈ opcodeTable, k.instr = i.withOperand 0 :=
  List.mem_map.1 (decodeOpcode_mem_opcodeTable _ _ (decodeOpcode_of_instr 0 i))

/-- A key for an instruction has that instruction's default byte. -/
theorem key_opcode_of_instr {k : OpcodeKey} {i : Instr} {v : Word} (h : k.instr = i.withOperand v) :
    k.opcode = i.form.opcode := by
  rw [OpcodeKey.opcode, h, withOperand_opcode]

theorem opcodeByte_hlt (c : Config) : opcodeByte c .hlt = 0x76 := rfl

/-- Under a legal setting of P4 the byte determines the signature (93_implementation_defined.md U1). -/
theorem withOperand_eq_of_opcodeByte_eq {c : Config} (hc : c.wf = true) {i j : Instr}
    (h : opcodeByte c i = opcodeByte c j) : i.withOperand 0 = j.withOperand 0 := by
  obtain ⟨k, hk, hki⟩ := exists_key i
  obtain ⟨l, hl, hlj⟩ := exists_key j
  have hnodup : (opcodeTable.map fun k => opcodeByte c k.instr).Nodup := of_decide_eq_true hc
  have hbytes : opcodeByte c k.instr = opcodeByte c l.instr := by
    rw [hki, hlj, opcodeByte_withOperand, opcodeByte_withOperand, h]
  have hkl : k = l := List.inj_on_of_nodup_map hnodup hk hl hbytes
  rw [← hki, ← hlj, hkl]

/-- Under a legal setting of P4 the byte 0x76 is HLT's alone (00_scope.md R6 P3). -/
theorem opcodeByte_eq_0x76_iff {c : Config} (hc : c.wf = true) (i : Instr) : opcodeByte c i = 0x76 ↔ i = .hlt := by
  constructor
  · intro h
    have hsig : i.withOperand 0 = .hlt := withOperand_eq_of_opcodeByte_eq hc (h.trans (opcodeByte_hlt c).symm)
    exact (withOperand_eq_hlt 0 i).1 hsig
  · rintro rfl
    exact opcodeByte_hlt c

theorem opcodeTable_length : opcodeTable.length = 246 := by decide +kernel

theorem opcodeTable_text_nodup : (opcodeTable.map OpcodeKey.text).Nodup := by decide +kernel

theorem opcodeTable_opcode_nodup : (opcodeTable.map OpcodeKey.opcode).Nodup := by decide +kernel

/-- Settles O4: the counts and the distinct texts and bytes are read off the table; a legal setting of P4 is injective on the
keys, and every instruction has a key. -/
theorem opcodeTableIsABijection : Obligations.OpcodeTableIsABijection := by
  refine ⟨opcodeTable_length, opcodeTable_text_nodup, opcodeTable_opcode_nodup, fun i => ?_, fun c hc => ⟨?_, ?_, ?_⟩⟩
  · obtain ⟨k, hk, hki⟩ := exists_key i
    exact ⟨k, hk, hki, congrArg some (key_opcode_of_instr hki).symm⟩
  · exact fun i j => withOperand_eq_of_opcodeByte_eq hc
  · exact fun i => Option.some_inj.trans (opcodeByte_eq_0x76_iff hc i)
  · exact fun i => rfl

/-! ### Words written out -/

/-- Settles O5: each word is looked up in the map. -/
theorem sampleWordsDecode : Obligations.SampleWordsDecode :=
  ⟨rfl, rfl, rfl, rfl, rfl, rfl, rfl, rfl, rfl, rfl, rfl, rfl⟩

end Sys2Proof.Machine
end

section
/-! SUPPORT. The facts about the assembler that the claims of 40_assembler.md rest on: the line a record comes from, the bytes
the passes write and leave, and the worked example; with the claims themselves. -/

namespace Sys2Proof.Machine

open Sys2Proof.Claims

/-! ### The two passes -/

theorem totalLength_cons (ln : Line) (rest : List Line) : totalLength (ln :: rest) = ln.length + totalLength rest := rfl

theorem totalLength_append (xs ys : List Line) : totalLength (xs ++ ys) = totalLength xs + totalLength ys := by
  simp [totalLength]

theorem pass2_append (c : Config) (num : Numerals) (labels : LabelTable) (img : Image) (xs ys : List Line) :
    pass2 c num labels img (xs ++ ys) = pass2 c num labels (pass2 c num labels img xs) ys :=
  List.foldl_append

/-- Settles O59: both cursors advance by the lengths of the lines, and only `ln` and the lines after it can set its label. -/
theorem passesAgree : Obligations.PassesAgree := by
  intro c num labels m before after ln
  have hcur : (pass2 c num labels (emptyImage m) before).cur = (pass1 loadAddress [] before).2 := by
    rw [pass2_cursor, pass1_cursor]; rfl
  refine ⟨hcur, fun hlabel hafter => ?_⟩
  rw [hcur, pass1_append, pass1, pass1_keeps_label _ _ _ _ hafter, recordLabel, if_neg hlabel, labelAddress_setLabel,
    if_pos rfl]

/-! ### The line of a record -/

/-- A record of the passes comes from a line, at the cursor after the lines before it. -/
theorem mem_lineRecords {c : Config} {num : Numerals} {labels : LabelTable} {cur : Nat} {lns : List Line} {r : Record}
    (h : r ∈ lineRecords c num labels cur lns) :
    ∃ before ln after, lns = before ++ ln :: after
      ∧ lineRecord c num labels (cur + totalLength before) ln = some r := by
  induction lns generalizing cur with
  | nil => cases h
  | cons ln rest ih =>
    rw [lineRecords, List.mem_append, Option.mem_toList] at h
    rcases h with h | h
    · exact ⟨[], ln, rest, rfl, h⟩
    · obtain ⟨before, q, after, rfl, hq⟩ := ih h
      refine ⟨ln :: before, q, after, rfl, ?_⟩
      rwa [totalLength_cons, ← Nat.add_assoc]

/-- What the record of a clean line holds (40_assembler.md R118 to R128). -/
theorem lineRecord_cases {c : Config} {num : Numerals} {labels : LabelTable} {cur : Nat} {ln : Line} {r : Record}
    (hc : ln.clean) (h : lineRecord c num labels cur ln = some r) :
    ∃ k, lookup r.mnemonic r.operands = some k ∧ mnemonicLength r.mnemonic = k.instr.length ∧ ln.length = k.instr.length
      ∧ r = ⟨BitVec.ofNat 16 cur, r.mnemonic, r.operands, opcodeByte c k.instr,
          k.instr.withOperand (cutValue k.instr.length (operandNat num labels k.shape r.operands)), ln.number⟩ := by
  obtain ⟨⟨k, mn, ops⟩, hr, rfl⟩ := Option.map_eq_some_iff.1 h
  obtain ⟨hcon, hl⟩ := recognised_some hr
  have hlen : mnemonicLength mn = k.instr.length := by
    rw [← lookup_mnemonic (hc mn ops hcon) hl]; exact key_length k (lookup_mem hl)
  exact ⟨k, hl, hlen, by simp only [Line.length, hr, hlen], by simp only [hlen]⟩

/-- A record names its signature's instruction with the value of its operand, and has the signature's byte (40_assembler.md
R120, R126, R128). -/
theorem lineRecord_matches {c : Config} {num : Numerals} {labels : LabelTable} {cur : Nat} {ln : Line} {r : Record}
    (hc : ln.clean) (h : lineRecord c num labels cur ln = some r) :
    ∃ k, lookup r.mnemonic r.operands = some k ∧ k.instr = r.instr.withOperand 0
      ∧ r.val = cutValue (mnemonicLength r.mnemonic) (operandNat num labels k.shape r.operands)
      ∧ r.opcode = opcodeByte c r.instr := by
  obtain ⟨k, hl, hlen, -, hr⟩ := lineRecord_cases hc h
  refine ⟨k, hl, ?_, ?_, ?_⟩
  · rw [hr, withOperand_withOperand, key_operand k (lookup_mem hl)]
  · rw [hlen, hr]; exact operand_withOperand_cutValue _ _
  · rw [hr, opcodeByte_withOperand]

/-- A record begins at its line's cursor and is as long as its line (40_assembler.md R112, R128). -/
theorem lineRecord_place {c : Config} {num : Numerals} {labels : LabelTable} {cur : Nat} {ln : Line} {r : Record}
    (hc : ln.clean) (h : lineRecord c num labels cur ln = some r) :
    r.address = BitVec.ofNat 16 cur ∧ r.len = ln.length := by
  obtain ⟨k, -, -, hlen, hr⟩ := lineRecord_cases hc h
  rw [hr, hlen]
  exact ⟨rfl, withOperand_length _ _⟩

/-- On an image that fits, the address of a record is its cursor. -/
theorem lineRecord_address_toNat {c : Config} {num : Numerals} {labels : LabelTable} {cur : Nat} {ln : Line} {r : Record}
    (hc : ln.clean) (hfit : cur + ln.length ≤ 0x10000) (h : lineRecord c num labels cur ln = some r) :
    r.address.toNat = cur := by
  obtain ⟨haddr, hlen⟩ := lineRecord_place hc h
  have hpos := one_le_len r
  rw [haddr, BitVec.toNat_ofNat]
  omega

/-- Byte `n` of a record's encoding belongs at its line's cursor plus `n`, within the line's bytes. -/
theorem lineRecord_byte_toNat {c : Config} {num : Numerals} {labels : LabelTable} {cur : Nat} {ln : Line} {r : Record}
    (hc : ln.clean) (hfit : cur + ln.length ≤ 0x10000) (h : lineRecord c num labels cur ln = some r) {n : Nat} {b : Byte}
    (hb : (encodeWith c r.instr)[n]? = some b) :
    (r.address + BitVec.ofNat 16 n).toNat = cur + n ∧ n < ln.length := by
  have hn : n < ln.length := by
    obtain ⟨hlt, -⟩ := List.getElem?_eq_some_iff.1 hb
    rw [encodeWith_length] at hlt
    exact (lineRecord_place hc h).2 ▸ hlt
  refine ⟨?_, hn⟩
  rw [BitVec.toNat_add, lineRecord_address_toNat hc hfit h, BitVec.toNat_ofNat]
  omega

/-! ### The bytes the passes write and leave -/

/-- The byte at an address is one of a record's (10_state.md R36): from its address, as many as its instruction has. -/
def recordCovers (r : Record) (a : Word) : Prop := r.address.toNat ≤ a.toNat ∧ a.toNat < r.address.toNat + r.len

/-- A line of pass 2 writes the bytes of its record's encoding from the record's address up (40_assembler.md R118, R119). -/
theorem read_pass2Line_of_encodeWith {c : Config} {num : Numerals} {labels : LabelTable} {img : Image} {ln : Line}
    {r : Record} (hc : ln.clean) (hfit : img.cur + ln.length ≤ 0x10000)
    (hr : lineRecord c num labels img.cur ln = some r) {n : Nat} {b : Byte} (hb : (encodeWith c r.instr)[n]? = some b) :
    (pass2Line c num labels img ln).mem.read (r.address + BitVec.ofNat 16 n) = b := by
  obtain ⟨hat, -⟩ := lineRecord_byte_toNat hc hfit hr hb
  simp only [read_pass2Line hc hfit, hr, hat, if_pos (Nat.le_add_right _ _), Nat.add_sub_cancel_left, hb, Option.getD_some]

/-- A line of pass 2 leaves every byte that its record, if it makes one, does not cover. -/
theorem read_pass2Line_of_not_covers {c : Config} {num : Numerals} {labels : LabelTable} {img : Image} {ln : Line}
    (hc : ln.clean) (hfit : img.cur + ln.length ≤ 0x10000) {a : Word}
    (ha : ∀ r, lineRecord c num labels img.cur ln = some r → ¬ recordCovers r a) :
    (pass2Line c num labels img ln).mem.read a = img.mem.read a := by
  rw [read_pass2Line hc hfit]
  cases hr : lineRecord c num labels img.cur ln with
  | none => rfl
  | some r =>
    have haddr := lineRecord_address_toNat hc hfit hr
    by_cases hle : img.cur ≤ a.toNat
    · -- beyond the last byte of the encoding
      have hout : (encodeWith c r.instr).length ≤ a.toNat - img.cur := by
        have := ha r hr
        rw [recordCovers, haddr, Record.len] at this
        rw [encodeWith_length]; omega
      simp only [if_pos hle, List.getElem?_eq_none hout, Option.getD_none]
    · exact if_neg hle

/-- Pass 2 leaves every byte that no record covers (40_assembler.md R133). -/
theorem read_pass2_of_not_covers {c : Config} {num : Numerals} {labels : LabelTable} {img : Image} {lns : List Line}
    (hc : ∀ ln ∈ lns, ln.clean) (hfit : img.cur + totalLength lns ≤ 0x10000) {a : Word}
    (ha : ∀ r ∈ lineRecords c num labels img.cur lns, ¬ recordCovers r a) :
    (pass2 c num labels img lns).mem.read a = img.mem.read a := by
  induction lns generalizing img with
  | nil => rfl
  | cons ln rest ih =>
    rw [totalLength_cons] at hfit
    simp only [lineRecords, List.mem_append, Option.mem_toList] at ha
    rw [pass2_cons, ih (fun q hq => hc q (List.mem_cons_of_mem _ hq))]
    · exact read_pass2Line_of_not_covers (hc ln List.mem_cons_self) (by omega) fun r hr => ha r (.inl hr)
    · rw [pass2Line_cur]; omega
    · rw [pass2Line_cur]; exact fun r hr => ha r (.inr hr)

/-- The records of lines from a cursor up cover nothing below it. -/
theorem lineRecords_not_covers_below {c : Config} {num : Numerals} {labels : LabelTable} {cur : Nat} {lns : List Line}
    (hc : ∀ ln ∈ lns, ln.clean) (hfit : cur + totalLength lns ≤ 0x10000) {a : Word} (ha : a.toNat < cur) :
    ∀ r ∈ lineRecords c num labels cur lns, ¬ recordCovers r a := by
  rintro r hr ⟨hle, -⟩
  obtain ⟨before, ln, after, rfl, hline⟩ := mem_lineRecords hr
  rw [totalLength_append, totalLength_cons] at hfit
  have := lineRecord_address_toNat (hc ln (by simp)) (by omega) hline
  omega

/-- After pass 2 the bytes of each record's encoding stand from its address up (40_assembler.md R118, R119). -/
theorem read_pass2_of_encodeWith {c : Config} {num : Numerals} {labels : LabelTable} {img : Image} {lns : List Line}
    {r : Record} (hc : ∀ ln ∈ lns, ln.clean) (hfit : img.cur + totalLength lns ≤ 0x10000)
    (hr : r ∈ lineRecords c num labels img.cur lns) {n : Nat} {b : Byte} (hb : (encodeWith c r.instr)[n]? = some b) :
    (pass2 c num labels img lns).mem.read (r.address + BitVec.ofNat 16 n) = b := by
  obtain ⟨before, ln, after, rfl, hline⟩ := mem_lineRecords hr
  rw [totalLength_append, totalLength_cons] at hfit
  have hcur := pass2_cursor c num labels img before
  have hcln : ln.clean := hc ln (by simp)
  have hcafter : ∀ q ∈ after, q.clean := fun q hq => hc q (by simp [hq])
  rw [← hcur] at hline
  obtain ⟨hat, hn⟩ := lineRecord_byte_toNat hcln (by omega) hline hb
  calc (pass2 c num labels img (before ++ ln :: after)).mem.read (r.address + BitVec.ofNat 16 n)
      = (pass2Line c num labels (pass2 c num labels img before) ln).mem.read (r.address + BitVec.ofNat 16 n) := by
        have hnext := pass2Line_cur c num labels (pass2 c num labels img before) ln
        rw [pass2_append, pass2_cons]
        exact read_pass2_of_not_covers hcafter (by omega) (lineRecords_not_covers_below hcafter (by omega) (by omega))
    _ = b := read_pass2Line_of_encodeWith hcln (by omega) hline hb

/-! ### The operation -/

/-- Settles O57: a record comes from a line of the text, and no later line writes over its bytes; the `error` policy's empty
result has no record. -/
theorem assembledBytesMatchTheRecords : Obligations.AssembledBytesMatchTheRecords := by
  intro num txt s t rep h r hr
  rcases assembleWith_cases h with ⟨-, rfl, -⟩ | ⟨hfit, hlines⟩
  · cases hr
  · obtain rfl : t = (assembleLines num (sourceLines txt) s).1 := congrArg Prod.fst hlines
    rw [assembleLines_prog] at hr
    have hclean := sourceLines_clean txt
    obtain ⟨before, ln, after, hsplit, hline⟩ := mem_lineRecords hr
    obtain ⟨k, hl, hk, hval, hop⟩ := lineRecord_matches (hclean ln (by simp [hsplit])) hline
    exact ⟨k, hl, hk, hval, hop, fun n b hb => read_pass2_of_encodeWith (img := emptyImage s.mem) hclean hfit hr hb⟩

/-- Settles O56: the `error` policy's empty result keeps memory and PC, and pass 2 writes only what the records cover. -/
theorem assembleLeavesTheRestAlone : Obligations.AssembleLeavesTheRestAlone := by
  intro num txt s t rep h
  rcases assembleWith_cases h with ⟨hpolicy, rfl, rfl⟩ | ⟨hfit, hlines⟩
  · refine ⟨fun r => by cases r <;> rfl, rfl, rfl, rfl, rfl, rfl, rfl, fun _ _ => rfl, fun htol => ?_, fun _ => rfl⟩
    rw [hpolicy] at htol; cases htol
  · obtain rfl : t = (assembleLines num (sourceLines txt) s).1 := congrArg Prod.fst hlines
    obtain rfl : rep = (assembleLines num (sourceLines txt) s).2 := congrArg Prod.snd hlines
    refine ⟨fun r => by cases r <;> rfl, rfl, rfl, rfl, rfl, rfl, rfl, fun a ha => ?_, fun _ => rfl, nofun⟩
    rw [assembleLines_prog] at ha
    exact read_pass2_of_not_covers (img := emptyImage s.mem) (sourceLines_clean txt) hfit ha

/-- Under the `tolerate` policy a text whose image fits is assembled by the two passes (40_assembler.md R130, R134). -/
theorem assembleWith_of_tolerate {num : Numerals} {txt : Text} {s : State} (hpolicy : s.cfg.unresolvedLine = .tolerate)
    (hfit : loadAddress + totalLength (sourceLines txt) ≤ 0x10000) :
    assembleWith num txt s = .next (assembleLines num (sourceLines txt) s) := by
  have hsize : ¬ (pass1 loadAddress [] (sourceLines txt)).2 > 0x10000 := by rw [pass1_cursor]; omega
  have hpass : ¬ (s.cfg.unresolvedLine = .error ∧ unrecognisedLines (sourceLines txt) ≠ []) := by simp [hpolicy]
  simp only [assembleWith, if_neg hsize, if_neg hpass]

/-! ### The worked example -/

/-- The lines of the worked example as both passes see them (40_assembler.md R136). -/
def workedLines : List Line :=
  [⟨1, [], some (text "MVI", [text "A", text "00H"])⟩, ⟨2, text "LOOP", some (text "INR", [text "A"])⟩,
   ⟨3, [], some (text "CPI", [text "05H"])⟩, ⟨4, [], some (text "JNZ", [text "LOOP"])⟩, ⟨5, [], some (text "HLT", [])⟩]

theorem sourceLines_workedExample :
    sourceLines (text "MVI A,00H\nLOOP: INR A\nCPI 05H\nJNZ LOOP\nHLT") = workedLines := by decide +kernel

/-- Its instructions take 2, 1, 2, 3 and 1 bytes. -/
theorem totalLength_workedLines : totalLength workedLines = 9 := by decide +kernel

/-- Settles O54: the text is its five lines, which fit, and the passes over these lines are computed. -/
theorem workedExampleAssembles : Obligations.WorkedExampleAssembles := by
  refine ⟨(assembleLines strictNumerals workedLines State.reset).1, (assembleLines strictNumerals workedLines State.reset).2,
    ?_, rfl, ?_⟩
  · have hfit : loadAddress + totalLength workedLines ≤ 0x10000 := by rw [totalLength_workedLines]; decide
    rw [← sourceLines_workedExample] at hfit ⊢
    exact assembleWith_of_tolerate rfl hfit
  · decide +kernel

/-! ### Corner cases -/

/-- A token that is a label has the label's address, whatever numeral it may be (40_assembler.md R121, R123). -/
theorem tokenValue_of_label {labels : LabelTable} {tok : Text} {a : Word} (h : labelAddress labels tok = some a)
    (num : Numerals) : tokenValue num labels tok = some a.toNat := by
  rw [tokenValue, h]

theorem labelAddress_cons_same (name : Text) (a : Word) (rest : LabelTable) :
    labelAddress ((name, a) :: rest) name = some a := if_pos rfl

/-- Settles O55: the listed texts, taken as pairs, are looked up in the table, and the numerals read by the strict grammar. -/
theorem assemblerCornerCases : Obligations.AssemblerCornerCases := by
  refine ⟨?noKey, ?key, rfl, rfl, fun num a => tokenValue_of_label (labelAddress_cons_same _ a []) num, ?numerals⟩
  case noKey | key =>
    simp only [← Prod.forall']
    decide +kernel
  case numerals => decide

end Sys2Proof.Machine
end

section
/-! SUPPORT. The facts about the flags that the claim of 41_alu_flags.md R151 rests on: what the execute stage of a form leaves
of them, one lemma for each index of 10_state.md R29; with the claim itself. -/

namespace Sys2Proof.Machine

open Sys2Proof.Claims

/-! ### The flags of a pop -/

/-- POP writes all flags or none, by its word (10_state.md R29). -/
theorem flagsWritten_pop (q : Rq) : flagsWritten (.pop q) = .all ∨ flagsWritten (.pop q) = .none :=
  ite_eq_or_eq _ _ _

theorem ne_psw_of_flagsWritten_pop {q : Rq} (h : flagsWritten (.pop q) = .none) : q ≠ .psw := by
  rintro rfl
  cases h

/-- Only a popped PSW reaches the flags (47_stack_control.md R313). -/
theorem setRq_flags_of_ne {q : Rq} (h : q ≠ .psw) (s : State) (w : Word) : (s.setRq q w).flags = s.flags := by
  cases q with
  | pair p => exact setPair_flags s p w
  | psw => contradiction

/-! ### What the execute stage leaves -/

/-- INC8 leaves CY (41_alu_flags.md R147). -/
@[simp] theorem inc8_cy (v : Byte) (f : Flags) : (inc8 v f).2.cy = f.cy := rfl

/-- DEC8 leaves CY, whatever P8 makes of AC (41_alu_flags.md R146, R147). -/
@[simp] theorem dec8_cy (reading : AcSub) (v : Byte) (f : Flags) : (dec8 reading v f).2.cy = f.cy := rfl

/-- The stages of INR and DCR keep CY. -/
theorem stage_keeps_cy {f : Form} (h : flagsWritten f = .allButCarry) (next : Word) (s : State) :
    (stageOf f next s).st.flags.cy = s.flags.cy := by
  cases f with
  | inr d => exact inc8_cy (s.readOpnd d) s.flags
  | dcr d => exact dec8_cy s.cfg.acSub (s.readOpnd d) s.flags
  | pop q => obtain hq | hq := flagsWritten_pop q <;> rw [hq] at h <;> cases h
  | _ => cases h

/-- The stages of DAD, the rotates, CMC and STC update the old flags in CY alone (44_arithmetic.md R234, D8). -/
theorem stage_keeps_all_but_cy {f : Form} (h : flagsWritten f = .carryOnly) (next : Word) (s : State) :
    (stageOf f next s).st.flags = { s.flags with cy := (stageOf f next s).st.flags.cy } := by
  cases f with
  | dad p | rlc | rrc | ral | rar | cmc | stc => rfl
  | pop q => obtain hq | hq := flagsWritten_pop q <;> rw [hq] at h <;> cases h
  | _ => cases h

/-- The stage of a form whose rule names no flag keeps them all (41_alu_flags.md R151). -/
theorem stage_keeps_flags {f : Form} (h : flagsWritten f = .none) (next : Word) (s : State) :
    (stageOf f next s).st.flags = s.flags := by
  cases f with
  | alu op o | alui op v | inr d | dcr d | dad p | daa | rlc | rrc | ral | rar | cmc | stc => cases h
  | mov d o => exact writeOpnd_flags s d _
  | mvi d v => exact writeOpnd_flags s d v
  | lxi p v => exact setRp_flags s p v
  | inx p => exact setRp_flags s p _
  | dcx p => exact setRp_flags s p _
  | pop q => exact setRq_flags_of_ne (ne_psw_of_flagsWritten_pop h) s.popSp _
  | jcc c a => exact conditional_keeps (P := fun t => t.flags = s.flags) rfl rfl
  | ccc c a => exact conditional_keeps (P := fun t => t.flags = s.flags) rfl (push16_flags s next)
  | rcc c => exact conditional_keeps (P := fun t => t.flags = s.flags) rfl (popSp_flags s)
  | lda a | sta a | lhld a | shld a | ldax p | stax p | xchg | cma | jmp a | call a | ret | pchl | rst n | push q | xthl
  | sphl | nop | ei | di | rim | sim | inPort n | outPort n | hlt => rfl

/-! ### The frame -/

/-- The commit writes no flag. -/
theorem committedState_flags (i : Instr) (s : State) :
    (committedState i s).flags = (stageOf i.form (fallThrough i s) s).st.flags := rfl

/-- Settles O27: what the stage of the instruction's form leaves, the commit leaves. -/
theorem flagFrame : Obligations.FlagFrame := by
  intro i s t h
  rw [← exec_next_iff.1 h, committedState_flags]
  exact ⟨fun hf => stage_keeps_cy hf _ s, fun hf => stage_keeps_all_but_cy hf _ s, fun hf => stage_keeps_flags hf _ s⟩

end Sys2Proof.Machine
end

section
/-! SUPPORT. The facts about the engine that the claims of 42_step_engine.md rest on: the operands a record executes with, one
host step by what its fetch finds, the run of several, and what every instruction completes with; with the claims themselves. -/

namespace Sys2Proof.Machine

open Sys2Proof.Claims

/-! ### Operands by parameter P7 -/

/-- A byte belongs to one signature, so instructions with one default byte are alike but for their operands (30_encoding.md
R85). -/
theorem withOperand_eq_of_opcode_eq {i j : Instr} (h : i.form.opcode = j.form.opcode) (v : Word) :
    i.withOperand v = j.withOperand v := by
  have hi := decodeOpcode_of_instr v i
  rw [h, decodeOpcode_of_instr v j] at hi
  exact (Option.some.inj hi).symm

/-- A row builds an instruction it yields from any word that holds the instruction's operand bytes. -/
theorem build_of_yields {row : OpcodeRow} {i : Instr} (h : row.yields i) {v : Word}
    (hlo : ∀ b, i.form.operandBytes[0]? = some b → loByte v = b)
    (hhi : ∀ b, i.form.operandBytes[1]? = some b → hiByte v = b) : row.build v = i := by
  cases row with
  | bare j => exact h.1
  | byteOp f =>
    obtain ⟨d8, rfl, hbytes⟩ := h
    rw [OpcodeRow.build, hlo d8 (by rw [hbytes]; rfl)]
  | wordOp f =>
    obtain ⟨d16, rfl, hbytes⟩ := h
    have hl := hlo (loByte d16) (by rw [hbytes]; rfl)
    have hh := hhi (hiByte d16) (by rw [hbytes]; rfl)
    rw [OpcodeRow.build, ← mkWord_hiByte_loByte v, hl, hh, mkWord_hiByte_loByte]

/-- An instruction takes from a word that holds its operand bytes the operand it has (42_step_engine.md R166). -/
theorem withOperand_eq_self_of_bytes {i : Instr} {v : Word} (hlo : ∀ b, i.form.operandBytes[0]? = some b → loByte v = b)
    (hhi : ∀ b, i.form.operandBytes[1]? = some b → hiByte v = b) : i.withOperand v = i := by
  obtain ⟨row, hrow, hyields⟩ := decodeRow_of_instr i
  have hbuild : some (row.build v) = some (i.withOperand v) := by
    rw [← decodeOpcode_of_instr v i, decodeOpcode, hrow, Option.map_some]
  exact (Option.some.inj hbuild).symm.trans (build_of_yields hyields hlo hhi)

/-- The decoder reads from a signature's byte and a word's bytes the signature's instruction with that operand
(30_encoding.md R73). -/
theorem eq_withOperand_of_decode {i j : Instr} {v : Word} {rest : List Byte}
    (h : decode (i.form.opcode :: wordBytes v) = .ok (j, rest)) : i.withOperand v = j := by
  obtain ⟨hop, hbytes⟩ := List.cons.inj (decodeAcceptsOnlyEncodings _ _ _ h)
  have hread : ∀ {k b}, j.form.operandBytes[k]? = some b → (wordBytes v)[k]? = some b := fun hb => by
    rw [hbytes]; exact (List.getElem?_append_left (List.getElem?_eq_some_iff.1 hb).1).trans hb
  rw [withOperand_eq_of_opcode_eq hop]
  exact withOperand_eq_self_of_bytes (fun b hb => Option.some.inj (hread hb)) (fun b hb => Option.some.inj (hread hb))

/-- With P7 = `memory` a record executes with the word after PC as its operand (42_step_engine.md R166). -/
theorem recordInstr_of_memory {s : State} (h : s.cfg.operandSource = .memory) (r : Record) :
    recordInstr s r = r.instr.withOperand (s.load16 (s.pc + 1)) := by
  simp only [recordInstr, h]

/-- While its operand bytes stand in memory, a record's instruction has the word after its opcode byte as its operand. -/
theorem withOperand_of_operandBytesIntact {m : Memory} {r : Record} (h : operandBytesIntact m r) :
    r.instr.withOperand (m.readWord (r.address + 1)) = r.instr := by
  refine withOperand_eq_self_of_bytes (fun b hb => ?_) (fun b hb => ?_)
  · rw [Memory.readWord, loByte_mkWord]
    simpa using h 0 b hb
  · rw [Memory.readWord, hiByte_mkWord]
    exact h 1 b hb

/-- Settles O58: the two settings differ in the operand of the record at PC alone, and its bytes in memory are its value. -/
theorem operandSourcesAgreeOnUnwrittenCode : Obligations.OperandSourcesAgreeOnUnwrittenCode := by
  intro s hintact
  cases hr : findRecord s.prog s.pc with
  | none => exact fetch_congr_of_no_record rfl hr hr rfl
  | some r =>
    obtain ⟨hmem, haddr⟩ := findRecord_some hr
    refine fetch_congr_of_record rfl hr hr ?_
    rw [recordInstr_of_record rfl, recordInstr_of_memory rfl, ← haddr]
    exact (withOperand_of_operandBytesIntact (hintact r hmem)).symm

/-- The word after PC is the bytes at PC+1 and PC+2 (20_memory.md R55). -/
theorem wordBytes_load16_succ (s : State) : wordBytes (s.load16 (s.pc + 1)) = [s.mem.read (s.pc + 1), s.mem.read (s.pc + 2)] := by
  have hsucc : s.pc + 1 + 1 = s.pc + 2 := by rw [BitVec.add_assoc]; rfl
  rw [wordBytes, State.load16, Memory.readWord, loByte_mkWord, hiByte_mkWord, hsucc]

/-- The operand a record executes with, by parameter P7 (42_step_engine.md R166). -/
def executedOperand (s : State) (r : Record) : Word :=
  match s.cfg.operandSource with
  | .record => r.val
  | .memory => s.load16 (s.pc + 1)

theorem executedOperand_of_record {s : State} (h : s.cfg.operandSource = .record) (r : Record) : executedOperand s r = r.val := by
  simp only [executedOperand, h]

theorem executedOperand_of_memory {s : State} (h : s.cfg.operandSource = .memory) (r : Record) :
    executedOperand s r = s.load16 (s.pc + 1) := by
  simp only [executedOperand, h]

theorem recordInstr_eq_withOperand (s : State) (r : Record) : recordInstr s r = r.instr.withOperand (executedOperand s r) := by
  cases hsource : s.cfg.operandSource with
  | record =>
    rw [recordInstr_of_record hsource, executedOperand_of_record hsource]
    exact (withOperand_self r.instr).symm
  | memory => rw [recordInstr_of_memory hsource, executedOperand_of_memory hsource]

/-- Settles O15: the decoder reads the instruction the record executes, and the fetch found that record. -/
theorem stepRunsTheRecordAtPC : Obligations.StepRunsTheRecordAtPC := by
  intro s r i b2 b3 rest hh hr hrecord hmemory hdecode
  have hbytes : [b2, b3] = wordBytes (executedOperand s r) := by
    cases hsource : s.cfg.operandSource with
    | record =>
      obtain ⟨rfl, rfl⟩ := hrecord hsource
      rw [executedOperand_of_record hsource]; rfl
    | memory =>
      obtain ⟨rfl, rfl⟩ := hmemory hsource
      rw [executedOperand_of_memory hsource, wordBytes_load16_succ]
  have hfetch : fetch s = .run i := by
    rw [fetch_of_record hh hr, recordInstr_eq_withOperand, eq_withOperand_of_decode (hbytes ▸ hdecode)]
  refine ⟨⟨by simp only [step, hfetch], (stepReturns_iff s).2 ⟨i, hfetch⟩⟩, fun hwf => ?_⟩
  obtain ⟨-, hprog, -⟩ := State.wf_iff.1 hwf
  have hop := record_opcode (progWfFrom_mem hprog (findRecord_some hr).1).1
  exact ⟨hop, fun hdefault => by rw [hop, opcodeByte_default hdefault]; exact hdecode⟩

/-! ### One host step, by what its fetch finds -/

theorem noRecordAtPC_iff {s : State} : noRecordAtPC s ↔ findRecord s.prog s.pc = none := findRecord_none.symm

/-- Without a record a running engine halts on a 0x76 byte and fails on any other (42_step_engine.md R164). -/
theorem fetch_of_noRecordAtPC {s : State} (hh : s.halted = false) (hno : noRecordAtPC s) :
    fetch s = if s.mem.read s.pc = 0x76 then .rawHalt else .failure :=
  fetch_of_no_record hh (noRecordAtPC_iff.1 hno)

theorem fetch_failure_of_no_record {s : State} (hh : s.halted = false) (hno : noRecordAtPC s)
    (hbyte : s.mem.read s.pc ≠ 0x76) : fetch s = .failure := by
  rw [fetch_of_noRecordAtPC hh hno, if_neg hbyte]

theorem fetch_rawHalt_iff {s : State} :
    fetch s = .rawHalt ↔ s.halted = false ∧ noRecordAtPC s ∧ s.mem.read s.pc = 0x76 := by
  constructor
  · intro h
    have hh : s.halted = false := by rw [← Bool.not_eq_true, ← fetch_refused_iff, h]; nofun
    have hno : noRecordAtPC s := by
      intro r hmem haddr
      obtain ⟨q, hq⟩ := exists_findRecord ⟨r, hmem, haddr⟩
      rw [fetch_of_record hh hq] at h
      cases h
    refine ⟨hh, hno, ?_⟩
    by_contra hbyte
    rw [fetch_failure_of_no_record hh hno hbyte] at h
    cases h
  · rintro ⟨hh, hno, hbyte⟩
    rw [fetch_of_noRecordAtPC hh hno, if_pos hbyte]

theorem step_of_refused {s : State} (h : fetch s = .refused) : step s = .next s := by simp only [step, h]

theorem step_of_rawHalt {s : State} (h : fetch s = .rawHalt) : step s = .next s.enterHalt := by simp only [step, h]

theorem hostStep_of_refused {s : State} (h : fetch s = .refused) : hostStep s = (s, false) := by
  simp only [hostStep, step_of_refused h, stepReturns, h]

theorem hostStep_of_run {s : State} {i : Instr} (h : fetch s = .run i) : hostStep s = (committedState i s, true) := by
  simp only [hostStep, step_of_run h, stepReturns, h]

theorem hostStep_of_rawHalt {s : State} (h : fetch s = .rawHalt) : hostStep s = (s.enterHalt, false) := by
  simp only [hostStep, step_of_rawHalt h, stepReturns, h]

theorem hostStep_of_failure {s : State} (h : fetch s = .failure) : hostStep s = (s, false) := by
  simp only [hostStep, step_fault_iff.2 ⟨h, rfl⟩]

/-- Settles O16: the three conditions are those of the fetch's three answers that run no instruction. -/
theorem stepsThatExecuteNothing : Obligations.StepsThatExecuteNothing := by
  refine fun s => ⟨fun hh => ?_, fun hh hno hbyte => ?_, fun hh hno hbyte => ?_⟩
  · have hf := (fetch_refused_iff s).2 hh
    exact ⟨step_of_refused hf, hostStep_of_refused hf⟩
  · have hf := fetch_rawHalt_iff.2 ⟨hh, hno, hbyte⟩
    exact ⟨step_of_rawHalt hf, hostStep_of_rawHalt hf⟩
  · have hf := fetch_failure_of_no_record hh hno hbyte
    exact ⟨step_fault_iff.2 ⟨hf, rfl⟩, hostStep_of_failure hf⟩

/-! ### Every instruction -/

theorem conditional_nextPC (c : State → Bool) (taken : Stage) (next : Word) (s : State) :
    (conditional c taken next s).nextPC = if c s then (taken next s).nextPC else next := by
  rcases conditional_cases c taken next s with ⟨hc, h⟩ | ⟨hc, h⟩ <;> simp [h, hc]

theorem conditional_taken {c : State → Bool} {stage : Stage} {next : Word} {s : State} (h : (stage next s).taken = true) :
    (conditional c stage next s).taken = c s := by
  rcases conditional_cases c stage next s with ⟨hc, heff⟩ | ⟨hc, heff⟩ <;> simp [heff, hc, h]

/-- A form's stage transfers control where 48_timing.md R333 says so. -/
theorem stage_taken (f : Form) (next : Word) (s : State) : (stageOf f next s).taken = transferTaken f s := by
  cases f with
  | jcc c a => exact conditional_taken rfl
  | ccc c a => exact conditional_taken rfl
  | rcc c => exact conditional_taken rfl
  | _ => rfl

/-- A form's stage leads from the fall-through address to the next address of the form (42_step_engine.md R167, R168). -/
theorem stage_nextPC (f : Form) (s : State) :
    (stageOf f (s.pc + BitVec.ofNat 16 f.length) s).nextPC = nextAddress f s := by
  cases f with
  | jcc c a => exact conditional_nextPC _ _ _ s
  | ccc c a => exact conditional_nextPC _ _ _ s
  | rcc c => exact conditional_nextPC _ _ _ s
  | _ => rfl

theorem committedState_halted (i : Instr) (s : State) :
    (committedState i s).halted = (s.halted || decide (i.form = .hlt)) := by
  obtain ⟨-, -, -, -, hhalted⟩ := stage_keeps i.form (fallThrough i s) s
  exact hhalted

theorem committedState_tStates (i : Instr) (s : State) : (committedState i s).tStates
    = addTStates s.cfg.tstateWidth s.tStates (cost s.cfg.tstate i.form (transferTaken i.form s)) := by
  rw [← stage_taken i.form (fallThrough i s) s]; rfl

/-- Settles O25: what the stage of the instruction's form answers, the commit writes. -/
theorem everyInstructionCompletes : Obligations.EveryInstructionCompletes := fun i s =>
  ⟨committedState i s, exec_next i s, stage_nextPC i.form s, committedState_tStates i s, committedState_halted i s⟩

/-! ### Into the halted state and out of it -/

/-- HLT alone has HLT's form: it alone has its byte (30_encoding.md R85). -/
theorem form_eq_hlt_iff {i : Instr} : i.form = .hlt ↔ i = .hlt := by
  constructor
  · intro h
    have hsig : i.withOperand 0 = .hlt := withOperand_eq_of_opcode_eq (j := .hlt) (congrArg Form.opcode h) 0
    exact (withOperand_eq_hlt 0 i).1 hsig
  · rintro rfl
    rfl

/-- From a running state one step halts exactly on an executed HLT and on a raw 0x76 byte (42_step_engine.md R161). -/
theorem hostStep_halted_iff {s : State} (hh : s.halted = false) :
    (hostStep s).1.halted = true ↔ fetch s = .run .hlt ∨ fetch s = .rawHalt := by
  cases hf : fetch s with
  | refused => rw [(fetch_refused_iff s).1 hf] at hh; cases hh
  | run i => simp [hostStep_of_run hf, committedState_halted, hh, form_eq_hlt_iff]
  | rawHalt => simp [hostStep_of_rawHalt hf]
  | failure => simp [hostStep_of_failure hf, hh]

/-- In a state of the invariant the fetch runs HLT exactly when a record of HLT is at PC, under both settings of P7. -/
theorem fetch_run_hlt_iff {s : State} (hwf : s.wf = true) (hh : s.halted = false) :
    fetch s = .run .hlt ↔ ∃ r ∈ s.prog, r.address = s.pc ∧ r.instr = .hlt := by
  have hinstr : ∀ r, recordInstr s r = .hlt ↔ r.instr = .hlt := fun r => by
    rw [recordInstr_eq_withOperand, withOperand_eq_hlt]
  rw [fetch_run_iff]
  constructor
  · rintro ⟨-, r, hr, hi⟩
    obtain ⟨hmem, haddr⟩ := findRecord_some hr
    exact ⟨r, hmem, haddr, (hinstr r).1 hi⟩
  · rintro ⟨r, hmem, haddr, hi⟩
    obtain ⟨q, hq⟩ := exists_findRecord ⟨r, hmem, haddr⟩
    obtain ⟨hqmem, hqaddr⟩ := findRecord_some hq
    obtain ⟨-, hprog, -⟩ := State.wf_iff.1 hwf
    obtain rfl : q = r := progWfFrom_unique hprog hqmem hmem (hqaddr.trans haddr.symm)
    exact ⟨hh, q, hq, (hinstr q).2 hi⟩

/-- `assemble` leaves the engine running (40_assembler.md R108). -/
theorem hostApply_assemble_halted {txt : Text} {s t : State} {res : HostResult}
    (h : hostApply (.assemble txt) s = .next (t, res)) : t.halted = false := by
  obtain ⟨rep, hrep⟩ := hostApply_assemble h
  obtain ⟨-, -, -, -, hhalted, -⟩ := assembleLeavesTheRestAlone _ _ _ _ _ hrep
  exact hhalted

/-- No step leaves the halted state: it is refused (42_step_engine.md R163). -/
theorem step_keeps_halted {s t : State} (h : step s = .next t) (hh : s.halted = true) : t.halted = true := by
  rw [step_of_refused ((fetch_refused_iff s).2 hh)] at h
  cases h
  exact hh

/-- Settles O18: of the operations that are no run of steps, stop halts, a step halts as its fetch says, and the others but
`reset` and `assemble` keep `halted`; no step, stop or store leaves the halted state. -/
theorem haltTransitions : Obligations.HaltTransitions := by
  intro op s t res hwf h
  constructor
  · intro hh hrun htick
    cases op with
    | reset => cases h; simp [hostReset, State.reset]
    | assemble txt => simp [hostApply_assemble_halted h]
    | step =>
      cases h
      rw [hostStep_halted_iff hh, fetch_run_hlt_iff hwf hh, fetch_rawHalt_iff]
      simp [hh]
    | run n => exact absurd rfl (hrun n)
    | tick => exact absurd rfl htick
    | stop => cases h; simp [hostStop]
    | getMemory a => cases h; simp [hh]
    | setMemory a v => cases h; simp [setMemory, hh]
    | snapshot => cases h; simp [hh]
  · intro hh
    constructor
    · intro ht
      by_contra hno
      obtain ⟨hreset, hassemble⟩ := not_or.1 hno
      have hkeeps : s.halted = true → t.halted = true :=
        hostApply_induction (P := fun s t => s.halted = true → t.halted = true) (fun _ => id)
          (fun _ _ _ hst htu => htu ∘ hst) (fun _ _ => step_keeps_halted) (fun _ _ => rfl) (fun _ _ _ => id) h hreset
          (not_exists.1 hassemble)
      rw [hkeeps hh] at ht; cases ht
    · rintro (rfl | ⟨txt, rfl⟩)
      · cases h; rfl
      · exact hostApply_assemble_halted h

/-! ### The host's operations -/

theorem setMemory_wf {s : State} (h : s.wf = true) (address value : Int) : (setMemory s address value).wf = true := by
  obtain ⟨hmem, -, -⟩ := State.wf_iff.1 h
  exact (setMemory_sameTables s address value).wf h (store8_mem_wf hmem _ _)

theorem hostStop_wf {s : State} (h : s.wf = true) : (hostStop s).wf = true := by
  obtain ⟨hmem, -, -⟩ := State.wf_iff.1 h
  exact (enterHalt_sameTables s).wf h hmem

/-- Settles O14: `reset` and `assemble` establish the invariant anew; the others are made of steps, the stop request and
stores, which each keep it. -/
theorem hostOperationsKeepTheInvariant : Obligations.HostOperationsKeepTheInvariant := by
  intro op s t res hwf h
  cases op with
  | reset => cases h; exact hostReset_wf s
  | assemble txt =>
    obtain ⟨hmem, -, -⟩ := State.wf_iff.1 hwf
    obtain ⟨rep, hrep⟩ := hostApply_assemble h
    exact assembleEstablishesTheInvariant _ _ _ _ _ hmem hrep
  | _ =>
    exact hostApply_induction (P := fun s t => s.wf = true → t.wf = true) (fun _ => id) (fun _ _ _ hst htu => htu ∘ hst)
      (fun s t h hs => stepKeepsTheInvariant s t hs h) (fun _ => hostStop_wf) (fun _ _ _ hs => setMemory_wf hs _ _) h nofun
      nofun hwf

theorem narrow8_eq_ofNat (v : Int) : narrow8 v = BitVec.ofNat 8 (v % 256).toNat := by
  apply BitVec.eq_of_toNat_eq
  rw [narrow8_toNat, BitVec.toNat_ofNat]; omega

theorem narrow16_eq_ofNat (v : Int) : narrow16 v = BitVec.ofNat 16 (v % 65536).toNat := by
  apply BitVec.eq_of_toNat_eq
  rw [narrow16_toNat, BitVec.toNat_ofNat]; omega

/-- Settles O7: both reach the byte at the narrowed address, and a store changes memory alone. -/
theorem hostReadsAndWritesMemory : Obligations.HostReadsAndWritesMemory := by
  intro s address value b
  rw [← narrow16_eq_ofNat, ← narrow8_eq_ofNat]
  exact ⟨rfl, read_write s.mem _ b _, rfl⟩

/-- Memory after reset reads 0 everywhere (42_step_engine.md R178). -/
theorem hostReset_read (s : State) (a : Word) : (hostReset s).mem.read a = 0 := rfl

/-- Settles O10: reset writes every field but the configuration, and leaves neither a record nor a 0x76 byte at PC. -/
theorem resetReinitialisesEverything : Obligations.ResetReinitialisesEverything := by
  intro s
  have hfetch : fetch (hostReset s) = .failure :=
    fetch_failure_of_no_record rfl nofun (by rw [hostReset_read]; decide)
  refine ⟨fun r => ?_, rfl, rfl, rfl, hostReset_read s, rfl, rfl, rfl, rfl, step_fault_iff.2 ⟨hfetch, rfl⟩, fun t hcfg => ?_⟩
  · cases r <;> rfl
  · rw [hostReset, hcfg, hostReset]

/-! ### A run -/

theorem hostRun_of_halted {s : State} (h : s.halted = true) (n : Nat) : hostRun n s = (s, 0, .halted) := by
  cases n <;> simp [hostRun, h]

/-- A run goes on after a successful step (42_step_engine.md R175). -/
theorem hostRun_of_success {s t : State} (h : hostStep s = (t, true)) (n : Nat) :
    hostRun (n + 1) s = ((hostRun n t).1, (hostRun n t).2.1 + 1, (hostRun n t).2.2) := by
  have hh : s.halted = false := by
    by_contra hh
    rw [hostStep_of_refused ((fetch_refused_iff s).2 (Bool.of_not_eq_false hh))] at h
    cases h
  simp [hostRun, hh, h]

/-- A run of a running engine ends with a step that executes nothing (42_step_engine.md R175). -/
theorem hostRun_of_no_success {s t : State} (hh : s.halted = false) (h : hostStep s = (t, false)) (n : Nat) :
    hostRun (n + 1) s = (t, 0, if t.halted then .halted else .failed) := by
  simp [hostRun, hh, h]

/-- A step that executes nothing and does not halt changes nothing, so the next step is the same. -/
theorem hostStep_again {s t : State} (h : hostStep s = (t, false)) (ht : t.halted = false) : hostStep t = (t, false) := by
  cases hf : fetch s with
  | refused => rw [hostStep_of_refused hf] at h; cases h; exact hostStep_of_refused hf
  | run i => rw [hostStep_of_run hf] at h; cases h
  | rawHalt => rw [hostStep_of_rawHalt hf] at h; cases h; cases ht
  | failure => rw [hostStep_of_failure hf] at h; cases h; exact hostStep_of_failure hf

/-- Induction along a run: it meets a halted engine, its ceiling, a step that halts on a raw byte, a step that fails, or a
successful step and the run after it; each case has the run's result (42_step_engine.md R175). -/
theorem hostRun_result_induction {Q : Nat → State → Prop}
    (halted : ∀ n s, s.halted = true → hostRun n s = (s, 0, .halted) → Q n s)
    (ceiling : ∀ s, s.halted = false → hostRun 0 s = (s, 0, .ceiling) → Q 0 s)
    (rawHalt : ∀ n s t, t.halted = true → hostRun (n + 1) s = (t, 0, .halted) → Q (n + 1) s)
    (failed : ∀ n s t, hostStep s = (t, false) → t.halted = false → hostRun (n + 1) s = (t, 0, .failed) → Q (n + 1) s)
    (success : ∀ n s t, hostStep s = (t, true) →
      hostRun (n + 1) s = ((hostRun n t).1, (hostRun n t).2.1 + 1, (hostRun n t).2.2) → Q n t → Q (n + 1) s)
    (n : Nat) (s : State) : Q n s := by
  induction n generalizing s with
  | zero =>
    cases hh : s.halted with
    | true => exact halted 0 s hh (hostRun_of_halted hh 0)
    | false => exact ceiling s hh (by simp [hostRun, hh])
  | succ n ih =>
    cases hh : s.halted with
    | true => exact halted _ s hh (hostRun_of_halted hh _)
    | false =>
      match hs : hostStep s with
      | (t, true) => exact success n s t hs (hostRun_of_success hs n) (ih t)
      | (t, false) =>
        have hrun := hostRun_of_no_success hh hs n
        cases ht : t.halted with
        | true => exact rawHalt n s t ht (by rw [hrun, if_pos ht])
        | false => exact failed n s t hs ht (by rw [hrun, if_neg (Bool.eq_false_iff.1 ht)])

theorem hostRun_steps_le (n : Nat) (s : State) : (hostRun n s).2.1 ≤ n := by
  induction n, s using hostRun_result_induction with
  | success n s t _ hrun ih => rw [hrun]; exact Nat.succ_le_succ ih
  | halted _ _ _ hrun | ceiling _ _ hrun | rawHalt _ _ _ _ hrun | failed _ _ _ _ _ hrun => simp [hrun]

theorem hostRun_end_halted_iff (n : Nat) (s : State) : (hostRun n s).2.2 = .halted ↔ (hostRun n s).1.halted = true := by
  induction n, s using hostRun_result_induction with
  | success n s t _ hrun ih => rw [hrun]; exact ih
  | halted _ _ h hrun | ceiling _ h hrun | rawHalt _ _ _ h hrun | failed _ _ _ _ h hrun => simp [hrun, h]

/-- A failed run ended on a step that would fail again (42_step_engine.md R175). -/
theorem hostRun_end_failed {n : Nat} {s : State} (h : (hostRun n s).2.2 = .failed) :
    hostStep (hostRun n s).1 = ((hostRun n s).1, false) := by
  induction n, s using hostRun_result_induction with
  | success n s t _ hrun ih => rw [hrun] at h ⊢; exact ih h
  | failed n s t hs ht hrun => rw [hrun]; exact hostStep_again hs ht
  | halted _ _ _ hrun | ceiling _ _ hrun | rawHalt _ _ _ _ hrun => rw [hrun] at h; cases h

/-- A run that its ceiling stopped made that many steps, and a run with a larger ceiling is that run continued. -/
theorem hostRun_end_ceiling {n : Nat} {s : State} (h : (hostRun n s).2.2 = .ceiling) (m : Nat) :
    (hostRun n s).2.1 = n ∧ (hostRun (n + m) s).1 = (hostRun m (hostRun n s).1).1
      ∧ (hostRun (n + m) s).2.1 = n + (hostRun m (hostRun n s).1).2.1 := by
  induction n, s using hostRun_result_induction with
  | ceiling s _ hrun => simp [hrun]
  | success n s t hs hrun ih =>
    rw [hrun] at h ⊢
    obtain ⟨hsteps, hstate, hcount⟩ := ih h
    rw [Nat.succ_add, hostRun_of_success hs]
    exact ⟨congrArg (· + 1) hsteps, hstate, by simp only [hcount]; omega⟩
  | halted _ _ _ hrun | rawHalt _ _ _ _ hrun | failed _ _ _ _ _ hrun => rw [hrun] at h; cases h

/-- Settles O60: each clause by induction along the run. -/
theorem runEndsInOneOfThreeWays : Obligations.RunEndsInOneOfThreeWays := fun n m s =>
  ⟨hostRun_steps_le n s, hostRun_end_halted_iff n s, hostRun_end_failed, fun hend => hostRun_end_ceiling hend m⟩

end Sys2Proof.Machine
end

section
/-! SUPPORT. An instruction's whole next state and its bytes, read off its form, in the claims' own words; with the claims of
43_data_transfer.md. -/

namespace Sys2Proof.Machine

open Sys2Proof.Claims

/-! ### The next state and the bytes of a form -/

/-- An instruction commits the effect of its form's stage. The claims charge the T-states on the effect's state: no stage
writes the counter or the configuration (42_step_engine.md R169, R170). -/
theorem exec_of_effect {i : Instr} {f : Form} {s t : State} {pc : Word} {taken : Bool} (h : i.form = f)
    (heff : stageOf f (s.pc + BitVec.ofNat 16 f.length) s = ⟨t, pc, taken⟩) :
    exec i s = .next (committed i taken pc t) := by
  subst h
  obtain ⟨-, -, hcfg, htStates, -⟩ := stage_keeps i.form (s.pc + BitVec.ofNat 16 i.form.length) s
  rw [heff] at hcfg htStates
  rw [exec_of_form rfl, heff, ← hcfg, ← htStates]
  rfl

theorem encode_of_form {i : Instr} {f : Form} (h : i.form = f) : encode i = f.opcode :: f.operandBytes := by
  rw [encode, h]

theorem loByte_eq_truncate (v : Word) : loByte v = v.truncate 8 := by
  apply BitVec.eq_of_toNat_eq
  simp [loByte_toNat]

theorem hiByte_eq_truncate (v : Word) : hiByte v = (v >>> 8).truncate 8 := by
  apply BitVec.eq_of_toNat_eq
  have := v.isLt
  simp only [hiByte_toNat, BitVec.toNat_setWidth, BitVec.toNat_ushiftRight, Nat.shiftRight_eq_div_pow]
  omega

/-- A 16-bit operand is encoded as its low eight bits, then its high eight bits (30_encoding.md R70). -/
theorem wordBytes_eq_truncate (v : Word) : wordBytes v = [v.truncate 8, (v >>> 8).truncate 8] := by
  rw [wordBytes, loByte_eq_truncate, hiByte_eq_truncate]

/-- The bytes of an instruction with a 16-bit operand. -/
theorem encode_of_wordOperand {i : Instr} {f : Form} {v : Word} (h : i.form = f) (hv : f.operandBytes = wordBytes v) :
    encode i = [f.opcode, v.truncate 8, (v >>> 8).truncate 8] := by
  rw [encode_of_form h, hv, wordBytes_eq_truncate]

/-! ### MOV, MVI and LXI -/

/-- M has the operand code 6, so a MOV from M has `110` in its low bits (30_encoding.md R71, R76). -/
theorem opcode_mov_from_mem (d : Reg) : (Form.mov (.reg d) .mem).opcode = BitVec.ofNat 8 (0x46 + 8 * d.code) :=
  congrArg (BitVec.ofNat 8) (Nat.add_right_comm 0x40 (8 * d.code) 6)

/-- Settles O29: a MOV writes its destination operand with the value its source operand has in the old state. -/
theorem movCopies : Obligations.MovCopies := fun _ _ d _ =>
  ⟨fun h => ⟨encode_of_form h, exec_of_effect h rfl⟩,
    fun h => ⟨(encode_of_form h).trans (congrArg ([·]) (opcode_mov_from_mem d)), exec_of_effect h rfl⟩,
    fun h => ⟨encode_of_form h, exec_of_effect h rfl⟩⟩

/-- Settles O30: each load writes its operand with the immediate value and falls through. -/
theorem immediateLoads : Obligations.ImmediateLoads := fun _ _ _ _ _ _ =>
  ⟨fun h => ⟨encode_of_form h, exec_of_effect h rfl⟩,
    fun h => ⟨encode_of_form h, exec_of_effect h rfl⟩,
    fun h => ⟨encode_of_wordOperand h rfl, exec_of_effect h rfl⟩,
    fun h => ⟨encode_of_wordOperand h rfl, exec_of_effect h rfl⟩⟩

/-! ### Direct, indirect and exchange -/

/-- LHLD takes the word apart again: L is the byte at the address, H the byte after it (20_memory.md R55). -/
theorem opLhld_effect (a next : Word) (s : State) :
    opLhld a next s = ⟨{ s with l := s.mem.read a, h := s.mem.read (a + 1) }, next, false⟩ := by
  rw [opLhld, sequential, State.setPair, State.load16, Memory.readWord, hiByte_mkWord, loByte_mkWord]; rfl

/-- SHLD stores the halves of HL: L at the address, H after it (20_memory.md R55). -/
theorem opShld_effect (a next : Word) (s : State) :
    opShld a next s = ⟨{ s with mem := (s.mem.write a s.l).write (a + 1) s.h }, next, false⟩ := by
  rw [opShld, sequential, State.store16, Memory.writeWord, State.hl, State.pair, hiByte_mkWord, loByte_mkWord]; rfl

/-- Settles O31: the byte transfers move A; the word transfers move HL, low byte first. -/
theorem directTransfers : Obligations.DirectTransfers := fun s a16 =>
  ⟨⟨encode_of_wordOperand rfl rfl, exec_of_effect rfl rfl⟩,
    ⟨encode_of_wordOperand rfl rfl, exec_of_effect rfl rfl⟩,
    ⟨encode_of_wordOperand rfl rfl, exec_of_effect rfl (opLhld_effect a16 _ s)⟩,
    ⟨encode_of_wordOperand rfl rfl, exec_of_effect rfl (opShld_effect a16 _ s)⟩⟩

/-- Settles O32: each of the five stages falls through, with all its operands read from the old state. -/
theorem indirectTransfersAndExchange : Obligations.IndirectTransfersAndExchange := fun _ =>
  ⟨⟨rfl, rfl, rfl, rfl, rfl⟩, exec_of_effect rfl rfl, exec_of_effect rfl rfl, exec_of_effect rfl rfl,
    exec_of_effect rfl rfl, exec_of_effect rfl rfl⟩

end Sys2Proof.Machine
end

section
/-! SUPPORT. What the arithmetic stages leave, in the claims' own words: the ALU's results with their flags, the counts, DAD
and DAA, and the decimal sum; with the claims of 44_arithmetic.md. -/

namespace Sys2Proof.Machine

open Sys2Proof.Claims

/-! ### The results with their flags -/

/-- Counting the one bits in a list of positions is counting them one by one (41_alu_flags.md R141). -/
theorem parity8_eq_evenOnes (v : Byte) : parity8 v = evenOnes v :=
  forall_byte (p := fun v => parity8 v = evenOnes v) (by decide +kernel) v

theorem zsp_eq_resultFlags (res : Byte) (f : Flags) : zsp res f = resultFlags res f.ac f.cy := by
  rw [zsp_eq, parity8_eq_evenOnes]; rfl

theorem acSubtract_eq_borrowAC (k : AcSub) (a b : Byte) (bin : Bool) :
    acSubtract k a b bin = borrowAC k a.toNat b.toNat bin.toNat := by
  rw [acSubtract_eq]; cases k <;> rfl

/-- The sum in A and the five flags of an addition (41_alu_flags.md R143). -/
def sumResult (x y : Byte) (cin : Nat) : Byte × Flags :=
  let r := BitVec.ofNat 8 (x.toNat + y.toNat + cin)
  (r, resultFlags r (decide (15 < x.toNat % 16 + y.toNat % 16 + cin)) (decide (255 < x.toNat + y.toNat + cin)))

/-- The difference and the five flags of a subtraction (41_alu_flags.md R144). -/
def differenceResult (k : AcSub) (x y : Byte) (bin : Nat) : Byte × Flags :=
  let r := BitVec.ofNat 8 (256 + x.toNat - y.toNat - bin)
  (r, resultFlags r (borrowAC k x.toNat y.toNat bin) (decide (x.toNat < y.toNat + bin)))

theorem add8_eq_sumResult (a b : Byte) (cin : Bool) (f : Flags) : add8 a b cin f = sumResult a b cin.toNat := by
  rw [add8_eq, zsp_eq_resultFlags]; rfl

theorem sub8_eq_differenceResult (k : AcSub) (a b : Byte) (bin : Bool) (f : Flags) :
    sub8 k a b bin f = differenceResult k a b bin.toNat := by
  rw [sub8_eq, zsp_eq_resultFlags, acSubtract_eq_borrowAC]; rfl

/-- A compare is the flags of the subtraction with A as it was (44_arithmetic.md R224, R229). -/
theorem aluResult_cmp (k : AcSub) (a b : Byte) (f : Flags) :
    aluResult k .cmp a b f = (a, (differenceResult k a b 0).2) := by
  rw [aluResult, sub8_eq_differenceResult]; rfl

theorem inc8_eq_resultFlags (v : Byte) (f : Flags) : inc8 v f =
    (BitVec.ofNat 8 (v.toNat + 1), resultFlags (BitVec.ofNat 8 (v.toNat + 1)) (decide (v.toNat % 16 = 15)) f.cy) := by
  rw [inc8_eq, zsp_eq_resultFlags]

/-- DCR's AC is that of a subtraction of 1 without a borrow in (41_alu_flags.md R147). -/
theorem dec8_eq_resultFlags (k : AcSub) (v : Byte) (f : Flags) : dec8 k v f =
    (BitVec.ofNat 8 (v.toNat + 255), resultFlags (BitVec.ofNat 8 (v.toNat + 255)) (borrowAC k v.toNat 1 0) f.cy) := by
  rw [dec8_eq, zsp_eq_resultFlags, acSubtract_eq_borrowAC]; rfl

/-! ### The ALU group -/

theorem exec_alu {i : Instr} {op : AluOp} {o : Opnd} {s : State} {r : Byte × Flags} (h : i.form = .alu op o)
    (hr : aluResult s.cfg.acSub op s.a (s.readOpnd o) s.flags = r) :
    exec i s = .next (committed i false (s.pc + 1) (s.setAF r)) := by
  subst hr; exact exec_of_effect h rfl

theorem exec_alui {i : Instr} {op : AluOp} {y : Byte} {s : State} {r : Byte × Flags} (h : i.form = .alui op y)
    (hr : aluResult s.cfg.acSub op s.a y s.flags = r) :
    exec i s = .next (committed i false (s.pc + 2) (s.setAF r)) := by
  subst hr; exact exec_of_effect h rfl

/-- Settles O33: each of the four mnemonics is one addition, with its operand and its carry in. -/
theorem additionsComputeSumAndFlags : Obligations.AdditionsComputeSumAndFlags := by
  rintro i s o y cin bytes (⟨h, rfl, rfl, rfl⟩ | ⟨h, rfl, rfl, rfl⟩ | ⟨h, rfl, rfl⟩ | ⟨h, rfl, rfl⟩)
  · exact ⟨encode_of_form h, exec_alu h (add8_eq_sumResult s.a (s.readOpnd o) false s.flags)⟩
  · exact ⟨encode_of_form h, exec_alu h (add8_eq_sumResult s.a (s.readOpnd o) s.flags.cy s.flags)⟩
  · exact ⟨encode_of_form h, exec_alui h (add8_eq_sumResult s.a y false s.flags)⟩
  · exact ⟨encode_of_form h, exec_alui h (add8_eq_sumResult s.a y s.flags.cy s.flags)⟩

/-- Settles O34: each of the six mnemonics is one subtraction, and a compare keeps its flags alone. -/
theorem subtractionsComputeDifferenceAndFlags : Obligations.SubtractionsComputeDifferenceAndFlags := by
  rintro i s o y a bin bytes (⟨h, rfl, rfl, rfl, rfl⟩ | ⟨h, rfl, rfl, rfl, rfl⟩ | ⟨h, rfl, rfl, rfl, rfl⟩
    | ⟨h, rfl, rfl, rfl⟩ | ⟨h, rfl, rfl, rfl⟩ | ⟨h, rfl, rfl, rfl⟩)
  · exact ⟨encode_of_form h, exec_alu h (sub8_eq_differenceResult _ s.a (s.readOpnd o) false s.flags)⟩
  · exact ⟨encode_of_form h, exec_alu h (sub8_eq_differenceResult _ s.a (s.readOpnd o) s.flags.cy s.flags)⟩
  · exact ⟨encode_of_form h, exec_alu h (aluResult_cmp _ s.a (s.readOpnd o) s.flags)⟩
  · exact ⟨encode_of_form h, exec_alui h (sub8_eq_differenceResult _ s.a y false s.flags)⟩
  · exact ⟨encode_of_form h, exec_alui h (sub8_eq_differenceResult _ s.a y s.flags.cy s.flags)⟩
  · exact ⟨encode_of_form h, exec_alui h (aluResult_cmp _ s.a y s.flags)⟩

/-! ### The counts -/

theorem exec_inr {i : Instr} {o : Opnd} {s : State} {r : Byte × Flags} (h : i.form = .inr o)
    (hr : inc8 (s.readOpnd o) s.flags = r) :
    exec i s = .next (committed i false (s.pc + 1) ((s.writeOpnd o r.1).setFlags r.2)) := by
  subst hr; exact exec_of_effect h rfl

theorem exec_dcr {i : Instr} {o : Opnd} {s : State} {r : Byte × Flags} (h : i.form = .dcr o)
    (hr : dec8 s.cfg.acSub (s.readOpnd o) s.flags = r) :
    exec i s = .next (committed i false (s.pc + 1) ((s.writeOpnd o r.1).setFlags r.2)) := by
  subst hr; exact exec_of_effect h rfl

/-- Settles O35: both count the operand in place; a register and M are the two cases of the operand's write. -/
theorem incrementsAndDecrementsKeepCarry : Obligations.IncrementsAndDecrementsKeepCarry := by
  rintro i s o v r ac code rfl h
  obtain ⟨hbytes, hexec⟩ : encode i = [BitVec.ofNat 8 (code + 8 * o.code)]
      ∧ exec i s = .next (committed i false (s.pc + 1) ((s.writeOpnd o r).setFlags (resultFlags r ac s.flags.cy))) := by
    rcases h with ⟨h, rfl, rfl, rfl⟩ | ⟨h, rfl, rfl, rfl⟩
    · have hexec := exec_inr h (inc8_eq_resultFlags (s.readOpnd o) s.flags)
      exact ⟨encode_of_form h, hexec⟩
    · have hexec := exec_dcr h (dec8_eq_resultFlags s.cfg.acSub (s.readOpnd o) s.flags)
      exact ⟨encode_of_form h, hexec⟩
  refine ⟨hbytes, ?_, ?_⟩
  · rintro d rfl; exact hexec
  · rintro rfl; exact hexec

theorem narrow16_toNat_add_one (v : Word) : narrow16 ((v.toNat : Int) + 1) = v + 1 := by
  apply BitVec.eq_of_toNat_eq
  simp only [narrow16_toNat, BitVec.toNat_add, BitVec.reduceToNat]; omega

theorem narrow16_toNat_sub_one (v : Word) : narrow16 ((v.toNat : Int) - 1) = v - 1 := by
  apply BitVec.eq_of_toNat_eq
  simp only [narrow16_toNat, BitVec.toNat_sub, BitVec.reduceToNat]; omega

theorem exec_inx {i : Instr} {p : Rp} (h : i.form = .inx p) (s : State) :
    exec i s = .next (committed i false (s.pc + 1) (s.setRp p (s.rp p + 1))) := by
  rw [← narrow16_toNat_add_one]; exact exec_of_effect h rfl

theorem exec_dcx {i : Instr} {p : Rp} (h : i.form = .dcx p) (s : State) :
    exec i s = .next (committed i false (s.pc + 1) (s.setRp p (s.rp p - 1))) := by
  rw [← narrow16_toNat_sub_one]; exact exec_of_effect h rfl

/-- Settles O36: a pair and SP are the two cases of the count's operand. -/
theorem pairCountsWrapAndKeepFlags : Obligations.PairCountsWrapAndKeepFlags := fun _ s _ =>
  ⟨fun h => ⟨encode_of_form h, exec_inx h s⟩, fun h => ⟨encode_of_form h, exec_inx h s⟩,
    fun h => ⟨encode_of_form h, exec_dcx h s⟩, fun h => ⟨encode_of_form h, exec_dcx h s⟩⟩

/-- Settles O37: the stage writes HL and, of the flags, CY alone. -/
theorem dadAddsToHL : Obligations.DadAddsToHL := by
  intro i s p h
  refine ⟨encode_of_form h, exec_of_effect h ?_⟩
  rw [stageOf, opDad, sequential, dadResult_eq]; rfl

/-! ### DAA -/

/-- What DAA adds to A for its two corrections (44_arithmetic.md R235). -/
def decimalCorrection (low high : Bool) : Nat := (if low then 6 else 0) + (if high then 96 else 0)

/-- DAA's result; a high correction sets CY, which is one of its own conditions (44_arithmetic.md R235). -/
theorem daaResult_eq_resultFlags (a : Byte) (f : Flags) : daaResult a f =
    (BitVec.ofNat 8 (a.toNat + decimalCorrection (daaLow a f) (daaHigh a f)),
      resultFlags (BitVec.ofNat 8 (a.toNat + decimalCorrection (daaLow a f) (daaHigh a f)))
        (decide (15 < a.toNat % 16 + decimalCorrection (daaLow a f) (daaHigh a f) % 16)) (daaHigh a f)) := by
  have hcy : (f.cy || daaHigh a f) = daaHigh a f := by cases h : f.cy <;> simp [daaHigh, h]
  simp only [daaResult_eq, hcy, zsp_eq_resultFlags]; rfl

theorem exec_daa (s : State) : exec .daa s = .next (committed .daa false (s.pc + 1) (s.setAF (daaResult s.a s.flags))) :=
  exec_of_effect rfl rfl

/-- Settles O38: the two conditions are the model's own, and the result is one addition. -/
theorem daaCorrectsBothNibbles : Obligations.DaaCorrectsBothNibbles := by
  rintro s _ _ _ rfl rfl rfl
  refine ⟨rfl, ?_⟩
  rw [exec_daa, daaResult_eq_resultFlags]; rfl

/-! ### The decimal sum -/

/-- A tens' and a units' sum, added in binary and corrected for each decimal carry, are the digits of the decimal sum. -/
theorem corrected_digits {t u : Nat} (ht : t ≤ 18) (hu : u ≤ 19) :
    ((16 * t + u) % 256 + decimalCorrection (decide (9 < u)) (decide (100 ≤ 10 * t + u))) % 256
      = 16 * ((10 * t + u) / 10 % 10) + (10 * t + u) % 10 := by
  have htens : (10 * t + u) / 10 = t + u / 10 := Nat.mul_add_div (by decide) t u
  rw [htens, Nat.mod_add_mod]
  simp only [decimalCorrection, decide_eq_true_eq]
  split <;> split <;> omega

/-- A byte that holds the two lower decimal digits of `n` is the packed-BCD byte of `n` modulo 100. -/
theorem isBcd_of_digits {v : Byte} {n : Nat} (h : v.toNat = 16 * (n / 10 % 10) + n % 10) :
    isBcd v ∧ bcdValue v = n % 100 := by
  have hn : n % 100 = n % 10 + 10 * (n / 10 % 10) := Nat.mod_mul (a := 10) (b := 10)
  simp only [isBcd, bcdValue]
  omega

section
variable {x y : Byte} {cin : Nat} (hx : isBcd x) (hy : isBcd y) (hcin : cin ≤ 1)
include hx hy hcin

/-- After an addition of decimal digits the low correction applies exactly when the units' sum is no digit: from 16 on the
nibble has wrapped and AC shows it. -/
theorem daaLow_of_sum :
    daaLow (sumResult x y cin).1 (sumResult x y cin).2 = decide (9 < x.toNat % 16 + y.toNat % 16 + cin) := by
  obtain ⟨-, hx0⟩ := hx
  obtain ⟨-, hy0⟩ := hy
  simp only [daaLow, sumResult, resultFlags, BitVec.toNat_ofNat, ← Bool.decide_or]
  exact decide_eq_decide.2 (by omega)

/-- The high correction applies exactly when the decimal sum carries: the borderline case is a tens' sum of 9 with a carry
from the units that the low nibble still holds. -/
theorem daaHigh_of_sum :
    daaHigh (sumResult x y cin).1 (sumResult x y cin).2 = decide (100 ≤ bcdValue x + bcdValue y + cin) := by
  obtain ⟨hx1, hx0⟩ := hx
  obtain ⟨hy1, hy0⟩ := hy
  simp only [daaHigh, sumResult, resultFlags, bcdValue, BitVec.toNat_ofNat, ← Bool.decide_or, ← Bool.decide_and]
  exact decide_eq_decide.2 (by omega)

/-- The sum of two packed-BCD bytes with DAA's corrections is the packed-BCD sum. -/
theorem corrected_sum {r : Byte}
    (hr : r = BitVec.ofNat 8 ((sumResult x y cin).1.toNat
      + decimalCorrection (decide (9 < x.toNat % 16 + y.toNat % 16 + cin))
        (decide (100 ≤ bcdValue x + bcdValue y + cin)))) :
    isBcd r ∧ bcdValue r = (bcdValue x + bcdValue y + cin) % 100 := by
  obtain ⟨hx1, hx0⟩ := hx
  obtain ⟨hy1, hy0⟩ := hy
  have hsum : x.toNat + y.toNat + cin
      = 16 * (x.toNat / 16 + y.toNat / 16) + (x.toNat % 16 + y.toNat % 16 + cin) := by omega
  have hdec : bcdValue x + bcdValue y + cin
      = 10 * (x.toNat / 16 + y.toNat / 16) + (x.toNat % 16 + y.toNat % 16 + cin) := by simp only [bcdValue]; omega
  rw [hdec] at hr ⊢
  refine isBcd_of_digits ?_
  rw [hr, BitVec.toNat_ofNat, sumResult, BitVec.toNat_ofNat, hsum]
  exact corrected_digits (by omega) (by omega)

/-- DAA right after an addition of two packed-BCD bytes (44_arithmetic.md R235). -/
theorem daaResult_of_sum {r : Byte × Flags}
    (hr : r = daaResult (sumResult x y cin).1 (sumResult x y cin).2) :
    isBcd r.1 ∧ bcdValue r.1 = (bcdValue x + bcdValue y + cin) % 100
      ∧ r.2.cy = decide (100 ≤ bcdValue x + bcdValue y + cin) := by
  rw [daaResult_eq_resultFlags, daaLow_of_sum hx hy hcin, daaHigh_of_sum hx hy hcin] at hr
  subst hr
  obtain ⟨hbcd, hvalue⟩ := corrected_sum hx hy hcin rfl
  exact ⟨hbcd, hvalue, rfl⟩

end

theorem execAll_daa {i : Instr} {s t : State} (h : exec i s = .next t) :
    execAll [i, .daa] s = .next (committed .daa false (t.pc + 1) (t.setAF (daaResult t.a t.flags))) := by
  simp only [execAll, h, exec_daa]

/-- Settles O39: whichever addition it was, A and the flags it leaves are those DAA corrects to the decimal sum. -/
theorem daaGivesTheDecimalSum : Obligations.DaaGivesTheDecimalSum := by
  intro i s o y cin h ha hy
  obtain ⟨hcin, pc, hadd⟩ :
      cin ≤ 1 ∧ ∃ pc, exec i s = .next (committed i false pc (s.setAF (sumResult s.a y cin))) := by
    have hsum := additionsComputeSumAndFlags i s o y cin
    rcases h with ⟨h, hy, rfl⟩ | ⟨h, hy, rfl⟩ | ⟨h, rfl⟩ | ⟨h, rfl⟩
    · exact ⟨Nat.zero_le 1, _, (hsum _ (.inl ⟨h, hy, rfl, rfl⟩)).2⟩
    · exact ⟨Bool.toNat_le _, _, (hsum _ (.inr (.inl ⟨h, hy, rfl, rfl⟩))).2⟩
    · exact ⟨Nat.zero_le 1, _, (hsum _ (.inr (.inr (.inl ⟨h, rfl, rfl⟩)))).2⟩
    · exact ⟨Bool.toNat_le _, _, (hsum _ (.inr (.inr (.inr ⟨h, rfl, rfl⟩)))).2⟩
  exact ⟨_, execAll_daa hadd, daaResult_of_sum ha hy hcin rfl⟩

end Sys2Proof.Machine
end

section
/-! SUPPORT. What the boolean, rotate and complement stages leave, in the claims' own words; with the claims of
45_logical.md. -/

namespace Sys2Proof.Machine

open Sys2Proof.Claims

/-! ### The boolean operations -/

/-- A boolean operation's flags are S, Z and P of the result, with AC and CY cleared (41_alu_flags.md R148). -/
theorem logicFlags_eq_resultFlags (res : Byte) (f : Flags) : logicFlags res f = resultFlags res false false :=
  zsp_eq_resultFlags res { f with cy := false, ac := false }

theorem aluResult_of_boolean {op : AluOp} {a y res : Byte}
    (h : op = .ana ∧ res = a &&& y ∨ op = .xra ∧ res = a ^^^ y ∨ op = .ora ∧ res = a ||| y) (k : AcSub) (f : Flags) :
    aluResult k op a y f = (res, resultFlags res false false) := by
  rw [← logicFlags_eq_resultFlags res f]
  rcases h with ⟨rfl, rfl⟩ | ⟨rfl, rfl⟩ | ⟨rfl, rfl⟩ <;> rfl

/-- Settles O40: the ALU's result is the boolean one, with a register or M operand and with an immediate. -/
theorem booleanOperationsClearCarries : Obligations.BooleanOperationsClearCarries := by
  rintro i s op o y res bytes (⟨h, rfl, rfl⟩ | ⟨h, rfl⟩) hres
  · exact ⟨encode_of_form h, exec_alu h (aluResult_of_boolean hres _ s.flags)⟩
  · exact ⟨encode_of_form h, exec_alui h (aluResult_of_boolean hres _ s.flags)⟩

/-! ### The rotates -/

/-- A rotate falls through with its result in A and CY. -/
theorem exec_rotate {i : Instr} {s : State} {rotated r : Byte × Bool}
    (heff : stageOf i.form (s.pc + BitVec.ofNat 16 i.form.length) s = ⟨s.setACy rotated, s.pc + 1, false⟩)
    (hr : rotated = r) : exec i s = .next (committed i false (s.pc + 1) (s.setACy r)) := by
  subst hr; exact exec_of_effect rfl heff

/-- Settles O41: the model's four sums are these rotations and shifts. -/
theorem rotatesWriteAAndCarry : Obligations.RotatesWriteAAndCarry := fun s =>
  ⟨⟨rfl, rfl, rfl, rfl⟩, exec_rotate rfl (rlcResult_eq s.a), exec_rotate rfl (rrcResult_eq s.a),
    exec_rotate rfl (ralResult_eq s.a s.flags.cy), exec_rotate rfl (rarResult_eq s.a s.flags.cy)⟩

/-! ### CMA, CMC and STC -/

/-- The complement of a byte is its distance from 255 (45_logical.md R260). -/
theorem not_eq_ofNat_sub (v : Byte) : ~~~v = BitVec.ofNat 8 (255 - v.toNat) := by
  apply BitVec.eq_of_toNat_eq
  rw [BitVec.toNat_not, BitVec.toNat_ofNat]; omega

theorem exec_cma (s : State) : exec .cma s = .next (committed .cma false (s.pc + 1) { s with a := ~~~s.a }) :=
  exec_of_effect rfl rfl

/-- Settles O42: each of the three stages falls through, CMA with the complement in A, the others with a new CY. -/
theorem complementAndCarryOperations : Obligations.ComplementAndCarryOperations := by
  intro s
  refine ⟨⟨rfl, rfl, rfl⟩, ?_, exec_of_effect rfl rfl, exec_of_effect rfl rfl⟩
  rw [exec_cma, not_eq_ofNat_sub]

end Sys2Proof.Machine
end

section
/-! SUPPORT. What the conditional stages leave, by the claims' reading of the condition; with the claims of 46_branch.md on
jumps, calls, returns and restarts. -/

namespace Sys2Proof.Machine

open Sys2Proof.Claims

/-! ### The conditions -/

theorem condHolds_iff_conditionTrue {f : Flags} {c : Cond} : condHolds f c = true ↔ conditionTrue c f := by
  cases c with
  | NZ | NC | PO | P => exact .of_eq (Bool.not_eq_true' _)
  | Z | C | PE | M => exact Iff.rfl

/-- A conditional instruction commits the effect of its taken stage when the condition holds of the flags before it, and
otherwise falls through and charges the cost of the form not taken (46_branch.md R300, 48_timing.md R331). -/
theorem exec_conditional {i : Instr} {f : Form} {c : Cond} {taken : Stage} {s t : State} {pc : Word} (h : i.form = f)
    (hstage : stageOf f = conditional (fun s => condHolds s.flags c) taken)
    (htaken : taken (s.pc + BitVec.ofNat 16 f.length) s = ⟨t, pc, true⟩) :
    (conditionTrue c s.flags → exec i s = .next (committed i true pc t))
    ∧ (¬ conditionTrue c s.flags → exec i s = .next (committed i false (s.pc + BitVec.ofNat 16 f.length) s)) := by
  rw [← condHolds_iff_conditionTrue]
  rcases conditional_cases (fun s => condHolds s.flags c) taken (s.pc + BitVec.ofNat 16 f.length) s with
    ⟨hc, heff⟩ | ⟨hc, heff⟩
  · rw [← hstage, htaken] at heff
    exact ⟨fun _ => exec_of_effect h heff, absurd hc⟩
  · rw [← hstage] at heff
    exact ⟨fun hc' => absurd (hc'.symm.trans hc) nofun, fun _ => exec_of_effect h heff⟩

/-! ### What the taken stages leave -/

/-- CALL pushes the address it is given (46_branch.md R280). -/
theorem opCall_effect (a16 next : Word) (s : State) : opCall a16 next s = ⟨pushed s next, a16, true⟩ := rfl

/-- RST pushes the address it is given (46_branch.md R299). -/
theorem opRst_effect (n : Fin 8) (next : Word) (s : State) :
    opRst n next s = ⟨pushed s next, BitVec.ofNat 16 (8 * n.val), true⟩ := rfl

/-- RET goes to the word at the top of the stack and removes it (46_branch.md R289). -/
theorem opRet_effect (next : Word) (s : State) : opRet next s = ⟨{ s with sp := s.sp + 2 }, topWord s, true⟩ := rfl

/-! ### The claims -/

/-- Settles O43: a jump's taken stage changes no state and goes to the operand. -/
theorem jumpsGoToTheirTarget : Obligations.JumpsGoToTheirTarget := fun _ _ _ _ =>
  ⟨fun h => ⟨encode_of_wordOperand h rfl, exec_of_effect h rfl⟩,
    fun h => ⟨encode_of_wordOperand h rfl, exec_conditional h rfl rfl⟩⟩

/-- Settles O44: a call's taken stage pushes the fall-through address, which is PC+3 for a call. -/
theorem callsPushTheFallThroughAddress : Obligations.CallsPushTheFallThroughAddress := fun _ s _ a16 =>
  ⟨fun h => ⟨encode_of_wordOperand h rfl, exec_of_effect h (opCall_effect a16 (s.pc + 3) s)⟩,
    fun h => ⟨encode_of_wordOperand h rfl, exec_conditional h rfl (opCall_effect a16 (s.pc + 3) s)⟩⟩

/-- Settles O45: a return's taken stage pops the word at the top of the stack. -/
theorem returnsPopTheirTarget : Obligations.ReturnsPopTheirTarget := fun _ s _ =>
  ⟨fun h => ⟨encode_of_form h, exec_of_effect h (opRet_effect (s.pc + 1) s)⟩,
    fun h => ⟨encode_of_form h, exec_conditional h rfl (opRet_effect (s.pc + 1) s)⟩⟩

/-- Settles O47: a restart pushes the fall-through address, which is PC+1 for a restart. -/
theorem restartsCallEightTimesN : Obligations.RestartsCallEightTimesN := fun _ s n h =>
  ⟨encode_of_form h, exec_of_effect h (opRst_effect n (s.pc + 1) s)⟩

end Sys2Proof.Machine
end

section
/-! SUPPORT. What the stack stages leave, in the claims' own words, and what a push and the pop after it restore; with the
claims of 47_stack_control.md. -/

namespace Sys2Proof.Machine

open Sys2Proof.Claims

/-! ### The words a push and a pop move -/

/-- The word PUSH PSW pushes, written out flag by flag (10_state.md R24, R28). -/
theorem psw_eq_ofNat (s : State) : s.psw = BitVec.ofNat 16 (s.a.toNat * 256 + (s.flags.s.toNat * 128 + s.flags.z.toNat * 64
    + s.flags.ac.toNat * 16 + s.flags.p.toNat * 4 + 2 + s.flags.cy.toNat)) := by
  rw [State.psw, mkWord, flagByte_toNat]

/-- The high byte of PSW is A (10_state.md R24). -/
@[simp] theorem hiByte_psw (s : State) : hiByte s.psw = s.a := hiByte_mkWord _ _

@[simp] theorem loByte_topWord (s : State) : loByte (topWord s) = s.mem.read s.sp := loByte_popValue s

/-- The high byte of the word on top of the stack is the byte at SP+1 (20_memory.md R57). -/
@[simp] theorem hiByte_topWord (s : State) : hiByte (topWord s) = s.mem.read (s.sp + 1) := hiByte_mkWord _ _

/-- A popped PSW puts the byte at SP+1 into A and five bits of the byte at SP into the flags (47_stack_control.md R313). -/
theorem setPsw_topWord (s t : State) : t.setPsw (topWord s) =
    { t with
      a := s.mem.read (s.sp + 1)
      flags := ⟨(s.mem.read s.sp).getLsbD 7, (s.mem.read s.sp).getLsbD 6, (s.mem.read s.sp).getLsbD 4,
        (s.mem.read s.sp).getLsbD 2, (s.mem.read s.sp).getLsbD 0⟩ } := by
  rw [State.setPsw, hiByte_topWord, loByte_topWord]; rfl

/-! ### PUSH and POP -/

theorem exec_push {i : Instr} {q : Rq} (h : i.form = .push q) (s : State) :
    exec i s = .next (committed i false (s.pc + 1) (pushed s (s.rq q))) := exec_of_effect h rfl

theorem exec_pop {i : Instr} {q : Rq} (h : i.form = .pop q) (s : State) :
    exec i s = .next (committed i false (s.pc + 1) ({ s with sp := s.sp + 2 }.setRq q (topWord s))) := exec_of_effect h rfl

/-- Settles O48: PUSH pushes the word of its operand, and PSW's word is A with the flag byte. -/
theorem pushStoresTheWord : Obligations.PushStoresTheWord := by
  refine fun i s p => ⟨fun h => ⟨encode_of_form h, exec_push h s⟩, fun h => ⟨encode_of_form h, ?_⟩⟩
  rw [← psw_eq_ofNat]
  exact exec_push h s

/-- Settles O49: POP writes the word on top of the stack to its operand, and PSW takes it apart into A and the flags. -/
theorem popLoadsTheWord : Obligations.PopLoadsTheWord := by
  refine fun i s p => ⟨fun h => ⟨encode_of_form h, exec_pop h s⟩, fun h => ⟨encode_of_form h, ?_⟩⟩
  rw [exec_pop h, State.setRq, setPsw_topWord]

/-! ### A pop right after a push -/

/-- `t` has the registers, SP and the flags of `s`. -/
def SameProgrammerState (s t : State) : Prop := t.sp = s.sp ∧ t.flags = s.flags ∧ ∀ r, t.reg r = s.reg r

theorem SameProgrammerState.pair {s t : State} (h : SameProgrammerState s t) (p : Pair) : t.pair p = s.pair p := by
  obtain ⟨-, -, hreg⟩ := h
  rw [State.pair, State.pair, hreg, hreg]

/-- Removing the word a push and its commit left on the stack undoes the push, whatever SP is (20_memory.md R57). -/
theorem sameProgrammerState_of_pushed (i : Instr) (taken : Bool) (pc w : Word) (s : State) :
    SameProgrammerState s (committed i taken pc (pushed s w)).popSp :=
  ⟨(popValue_push16 s w).2, rfl, push16_reg s w⟩

/-- The word on top of the stack after a push and its commit is the pushed one (20_memory.md R57). -/
theorem topWord_pushed (i : Instr) (taken : Bool) (pc w : Word) (s : State) :
    topWord (committed i taken pc (pushed s w)) = w := (popValue_push16 s w).1

theorem execAll_two {i j : Instr} {s t u : State} (hi : exec i s = .next t) (hj : exec j t = .next u) :
    execAll [i, j] s = .next u := by
  simp only [execAll, hi, hj]

/-- POP after PUSH writes the pushed word to its own operand in a state that is otherwise as before both. -/
theorem execAll_push_pop {i j : Instr} {p q : Rq} (hi : i.form = .push p) (hj : j.form = .pop q) (s : State) :
    ∃ t pc, execAll [i, j] s = .next (committed j false pc (t.setRq q (s.rq p))) ∧ SameProgrammerState s t := by
  have hpop := exec_pop hj (committed i false (s.pc + 1) (pushed s (s.rq p)))
  rw [topWord_pushed] at hpop
  exact ⟨_, _, execAll_two (exec_push hi s) hpop, sameProgrammerState_of_pushed i false (s.pc + 1) (s.rq p) s⟩

/-- RET after CALL comes back to the fall-through address in a state that is otherwise as before both. -/
theorem execAll_call_ret (s : State) (a16 : Word) :
    ∃ t, execAll [.call a16, .ret] s = .next (committed .ret true (s.pc + 3) t) ∧ SameProgrammerState s t := by
  have hcall : exec (.call a16) s = .next (committed (.call a16) true a16 (pushed s (s.pc + 3))) :=
    exec_of_effect rfl (opCall_effect a16 (s.pc + 3) s)
  have hret := exec_of_effect (i := .ret) rfl (opRet_effect (a16 + 1) (committed (.call a16) true a16 (pushed s (s.pc + 3))))
  rw [topWord_pushed] at hret
  exact ⟨_, execAll_two hcall hret, sameProgrammerState_of_pushed (.call a16) true a16 (s.pc + 3) s⟩

/-- Two pairs share no register (10_state.md R23). -/
theorem pair_setPair_other {p q : Pair} (h : p ≠ q) (s : State) (v : Word) : (s.setPair q v).pair p = s.pair p := by
  obtain ⟨hhi, hlo⟩ : Pair.hi p ∉ pairRegisters q ∧ Pair.lo p ∉ pairRegisters q := by
    revert h; cases p <;> cases q <;> decide
  rw [State.pair, setPair_reg_other hhi, setPair_reg_other hlo, State.pair]

/-- Writing the PSW of `s` back gives the registers, SP and the flags of `s` (47_stack_control.md R313). -/
theorem SameProgrammerState.setPsw {s t : State} (h : SameProgrammerState s t) : SameProgrammerState s (t.setPsw s.psw) := by
  obtain ⟨hsp, -, hreg⟩ := h
  refine ⟨hsp, ?_, fun r => ?_⟩
  · rw [setPsw_flags, loByte_psw, unpackFlags_flagByte]
  · by_cases hr : r = .A
    · subst hr; exact hiByte_psw s
    · rw [setPsw_reg_other hr, hreg]

/-- Settles O50: in each round trip the stack is as before, and the pushed word goes where the second instruction says. -/
theorem stackRoundTrips : Obligations.StackRoundTrips := by
  refine ⟨fun i j s p q hi hj => ?_, fun s => ?_, fun s a16 => ?_⟩
  · obtain ⟨t, pc, hexec, hsame⟩ := execAll_push_pop hi hj s
    have hpair := hsame.pair
    obtain ⟨hsp, hflags, -⟩ := hsame
    refine ⟨_, hexec, pair_setPair_same t q _, ?_, ?_, fun p' hp' => ?_⟩
    · exact (setPair_sp t q _).trans hsp
    · exact (setPair_flags t q _).trans hflags
    · exact (pair_setPair_other hp' t _).trans (hpair p')
  · obtain ⟨t, pc, hexec, hsame⟩ := execAll_push_pop (i := .pushPSW) (j := .popPSW) rfl rfl s
    obtain ⟨hsp, hflags, hreg⟩ := hsame.setPsw
    exact ⟨_, hexec, hflags, hsp, hreg⟩
  · obtain ⟨t, hexec, hsp, hflags, hreg⟩ := execAll_call_ret s a16
    exact ⟨_, hexec, rfl, hsp, hreg, hflags⟩

/-! ### PCHL, SPHL and XTHL -/

/-- Settles O46: both stages read HL from the old state, PCHL as the next PC. -/
theorem hlMovesToPCAndSP : Obligations.HLMovesToPCAndSP := fun _ =>
  ⟨⟨rfl, rfl⟩, exec_of_effect rfl rfl, exec_of_effect rfl rfl⟩

/-- A word of one state's memory, written to HL of another: L is its low byte, H its high byte (20_memory.md R55). -/
theorem setPair_HL_load16 (s t : State) (a : Word) :
    t.setPair .HL (s.load16 a) = { t with l := s.mem.read a, h := s.mem.read (a + 1) } := by
  rw [State.setPair, State.load16, Memory.readWord, hiByte_mkWord, loByte_mkWord]; rfl

/-- XTHL stores the halves of HL and loads the two bytes they replace: L at SP, H at SP+1 (47_stack_control.md R314). -/
theorem opXthl_effect (next : Word) (s : State) : opXthl next s =
    ⟨{ s with
        l := s.mem.read s.sp
        h := s.mem.read (s.sp + 1)
        mem := (s.mem.write s.sp s.l).write (s.sp + 1) s.h }, next, false⟩ := by
  have hstore : s.store16 s.sp s.hl = { s with mem := (s.mem.write s.sp s.l).write (s.sp + 1) s.h } :=
    congrArg Effect.st (opShld_effect s.sp next s)
  rw [opXthl, sequential, hstore, setPair_HL_load16]

/-- Settles O51: the stage exchanges HL with the word at SP, both as they were before it. -/
theorem xthlExchangesWithTheTop : Obligations.XthlExchangesWithTheTop := fun s =>
  ⟨rfl, exec_of_effect rfl (opXthl_effect (s.pc + 1) s)⟩

/-! ### Machine control -/

/-- Settles O52: each of the seven stages leaves the state as it is, whatever the port. -/
theorem noOperationsOnlyAdvance : Obligations.NoOperationsOnlyAdvance := by
  refine ⟨⟨rfl, rfl, rfl, rfl, rfl⟩, fun s i hi => ?_, fun s port => ?_⟩
  · simp only [List.mem_cons, List.not_mem_nil, or_false] at hi
    rcases hi with rfl | rfl | rfl | rfl | rfl <;> exact exec_of_effect rfl rfl
  · exact ⟨rfl, rfl, exec_of_effect rfl rfl, exec_of_effect rfl rfl⟩

/-- Settles O53: HLT's stage answers the old PC, not the fall-through address. -/
theorem hltHaltsInPlace : Obligations.HltHaltsInPlace := fun _ => ⟨rfl, exec_of_effect rfl rfl⟩

end Sys2Proof.Machine
end

section
/-! SUPPORT. The timer: a state with other timing, with which every operation of the model commutes, and the operations that
leave the T-state counter alone; with the claims of 48_timing.md. -/

namespace Sys2Proof.Machine

open Sys2Proof.Claims

/-! ### The cost of a form -/

/-- The default table gives every form the T-states of 48_timing.md R334. -/
theorem cost_defaultCosts (f : Form) (taken : Bool) : cost defaultCosts f taken = defaultTStates f taken := by
  cases f with
  | mov d r => cases d <;> cases r <;> rfl
  | mvi d v => cases d <;> rfl
  | alu op r => cases r <;> rfl
  | inr d | dcr d => cases d <;> rfl
  | jcc c a => cases c <;> rfl
  | _ => rfl

/-- Settles O22: form by form, and the numbers of the source do not read the table. -/
theorem defaultCostTable : Obligations.DefaultCostTable :=
  ⟨fun i => cost_defaultCosts i.form, fun _ _ _ => ⟨rfl, rfl, rfl, rfl⟩⟩

/-! ### What each operation charges -/

/-- An accepted `assemble` keeps the T-state counter (48_timing.md R331). -/
theorem hostApply_assemble_tStates {txt : Text} {s t : State} {res : HostResult}
    (h : hostApply (.assemble txt) s = .next (t, res)) : t.tStates = s.tStates := by
  obtain ⟨rep, hrep⟩ := hostApply_assemble h
  obtain ⟨-, -, -, htStates, -⟩ := assembleLeavesTheRestAlone _ _ _ _ _ hrep
  exact htStates

/-- A step that executes nothing charges nothing (48_timing.md R331). -/
theorem hostStep_tStates_of_no_success {s : State} (h : stepReturns s = false) : (hostStep s).1.tStates = s.tStates := by
  cases hf : fetch s with
  | refused => rw [hostStep_of_refused hf]
  | run i => rw [(stepReturns_iff s).2 ⟨i, hf⟩] at h; cases h
  | rawHalt => rw [hostStep_of_rawHalt hf, enterHalt_tStates]
  | failure => rw [hostStep_of_failure hf]

/-- If the counter of `s` is unbounded, so is the counter of `t`, and it is not lower. -/
def CounterNotLowered (s t : State) : Prop :=
  s.cfg.tstateWidth = none → t.cfg.tstateWidth = none ∧ s.tStates ≤ t.tStates

theorem CounterNotLowered.trans {s t u : State} (h : CounterNotLowered s t) (h' : CounterNotLowered t u) :
    CounterNotLowered s u := fun hs => by
  obtain ⟨ht, hle⟩ := h hs
  obtain ⟨hu, hle'⟩ := h' ht
  exact ⟨hu, hle.trans hle'⟩

/-- What keeps the counter and the configuration does not lower the counter. -/
theorem counterNotLowered_of_eq {s t : State} (hcfg : t.cfg = s.cfg) (htStates : t.tStates = s.tStates) :
    CounterNotLowered s t := fun hs => ⟨hcfg ▸ hs, htStates.ge⟩

theorem enterHalt_counterNotLowered (s : State) : CounterNotLowered s s.enterHalt :=
  counterNotLowered_of_eq (enterHalt_cfg s) (enterHalt_tStates s)

theorem setMemory_counterNotLowered (s : State) (address value : Int) : CounterNotLowered s (setMemory s address value) :=
  counterNotLowered_of_eq (store8_cfg s _ _) (store8_tStates s _ _)

/-- An instruction adds its cost to an unbounded counter (10_state.md R33). -/
theorem committedState_counterNotLowered (i : Instr) (s : State) : CounterNotLowered s (committedState i s) := fun hs => by
  obtain ⟨-, -, hcfg⟩ := committedState_sameTables i s
  refine ⟨hcfg ▸ hs, ?_⟩
  rw [committedState_tStates, hs]
  exact Nat.le_add_right _ _

theorem step_counterNotLowered {s t : State} (h : step s = .next t) : CounterNotLowered s t := by
  rcases step_next_cases h with ⟨-, rfl⟩ | ⟨i, -, rfl⟩ | ⟨-, rfl⟩
  · exact counterNotLowered_of_eq rfl rfl
  · exact committedState_counterNotLowered i s
  · exact enterHalt_counterNotLowered s

/-- Settles O21: the commit adds the cost, the other operations keep the counter, and a run lowers it in none of its steps. -/
theorem eachStepChargesOneCost : Obligations.EachStepChargesOneCost := by
  refine ⟨fun s t i hstep hf => ?_, stepReturns_iff, fun s => hostStep_tStates_of_no_success,
    fun s t res txt x v op hop h => ?_, fun op s t res hwidth h hreset => ?_⟩
  · rw [step_of_run hf] at hstep
    cases hstep
    exact committedState_tStates i s
  · simp only [List.mem_cons, List.not_mem_nil, or_false] at hop
    rcases hop with rfl | rfl | rfl | rfl | rfl
    · cases h; rfl
    · cases h; exact store8_tStates s _ _
    · cases h; rfl
    · exact hostApply_assemble_tStates h
    · cases h; exact enterHalt_tStates s
  · by_cases hassemble : ∃ txt, op = .assemble txt
    · obtain ⟨txt, rfl⟩ := hassemble
      exact (hostApply_assemble_tStates h).ge
    · obtain ⟨-, hle⟩ := hostApply_induction (P := CounterNotLowered) (fun _ => counterNotLowered_of_eq rfl rfl)
        (fun _ _ _ => .trans) (fun _ _ => step_counterNotLowered) enterHalt_counterNotLowered setMemory_counterNotLowered h
        hreset (not_exists.1 hassemble) hwidth
      exact hle

/-! ### A state with other timing

The operations that depend on an operand or a condition commute with a change of timing; what they read does not see it. -/

/-- The state with another T-state counter, cost table and counter width. -/
def State.withTiming (s : State) (n : Nat) (costs : CostTable) (width : Option Nat) : State :=
  { s with tStates := n, cfg := { s.cfg with tstate := costs, tstateWidth := width } }

/-- The effect whose state has another timing. -/
def Effect.withTiming (e : Effect) (n : Nat) (costs : CostTable) (width : Option Nat) : Effect :=
  { e with st := e.st.withTiming n costs width }

/-- States that differ only in timing are one state under two timings. -/
theorem sameButTiming_iff {s t : State} : sameButTiming s t ↔ ∃ n costs width, t = s.withTiming n costs width := by
  constructor
  · intro h
    exact ⟨t.tStates, t.cfg.tstate, t.cfg.tstateWidth, h.symm⟩
  · rintro ⟨n, costs, width, rfl⟩
    rfl

section
variable (s : State) (n : Nat) (costs : CostTable) (width : Option Nat)

theorem setReg_withTiming (r : Reg) (v : Byte) :
    (s.withTiming n costs width).setReg r v = (s.setReg r v).withTiming n costs width := by
  cases r <;> rfl

theorem setPair_withTiming (p : Pair) (v : Word) :
    (s.withTiming n costs width).setPair p v = (s.setPair p v).withTiming n costs width := by
  simp only [State.setPair, setReg_withTiming]

theorem writeOpnd_withTiming (o : Opnd) (v : Byte) :
    (s.withTiming n costs width).writeOpnd o v = (s.writeOpnd o v).withTiming n costs width := by
  cases o with
  | reg r => exact setReg_withTiming s n costs width r v
  | mem => rfl

theorem writeOpnd_setFlags_withTiming (o : Opnd) (r : Byte × Flags) :
    ((s.withTiming n costs width).writeOpnd o r.1).setFlags r.2
      = ((s.writeOpnd o r.1).setFlags r.2).withTiming n costs width := by
  rw [writeOpnd_withTiming]; rfl

theorem setRp_withTiming (p : Rp) (v : Word) :
    (s.withTiming n costs width).setRp p v = (s.setRp p v).withTiming n costs width := by
  cases p with
  | pair p => exact setPair_withTiming s n costs width p v
  | sp => rfl

theorem setRq_withTiming (q : Rq) (w : Word) :
    (s.withTiming n costs width).setRq q w = (s.setRq q w).withTiming n costs width := by
  cases q with
  | pair p => exact setPair_withTiming s n costs width p w
  | psw => rfl

/-- The conditions read the flags alone (46_branch.md R270). -/
theorem conditional_withTiming (c : Cond) {taken : Stage} {next : Word}
    (htaken : taken next (s.withTiming n costs width) = (taken next s).withTiming n costs width) :
    conditional (fun s => condHolds s.flags c) taken next (s.withTiming n costs width)
      = (conditional (fun s => condHolds s.flags c) taken next s).withTiming n costs width := by
  have hflags : (s.withTiming n costs width).flags = s.flags := rfl
  simp only [conditional, hflags, htaken]
  split <;> rfl

end

/-- No stage reads or writes the timer (48_timing.md R336). -/
theorem stage_withTiming (f : Form) (next : Word) (s : State) (n : Nat) (costs : CostTable) (width : Option Nat) :
    stageOf f next (s.withTiming n costs width) = (stageOf f next s).withTiming n costs width := by
  cases f with
  | mov d r => exact congrArg (Effect.mk · next false) (writeOpnd_withTiming s n costs width d (s.readOpnd r))
  | mvi d v => exact congrArg (Effect.mk · next false) (writeOpnd_withTiming s n costs width d v)
  | inr d =>
    exact congrArg (Effect.mk · next false) (writeOpnd_setFlags_withTiming s n costs width d (inc8 (s.readOpnd d) s.flags))
  | dcr d =>
    exact congrArg (Effect.mk · next false)
      (writeOpnd_setFlags_withTiming s n costs width d (dec8 s.cfg.acSub (s.readOpnd d) s.flags))
  | lxi p _ | inx p | dcx p => exact congrArg (Effect.mk · next false) (setRp_withTiming s n costs width p _)
  | pop q => exact congrArg (Effect.mk · next false) (setRq_withTiming s.popSp n costs width q s.popValue)
  | jcc c a => exact conditional_withTiming s n costs width c (taken := opJmp a) rfl
  | ccc c a => exact conditional_withTiming s n costs width c (taken := opCall a) rfl
  | rcc c => exact conditional_withTiming s n costs width c (taken := opRet) rfl
  | _ => rfl

/-- An instruction takes states that differ only in timing to such states (48_timing.md R336). -/
theorem sameButTiming_committedState (i : Instr) (s : State) (n : Nat) (costs : CostTable) (width : Option Nat) :
    sameButTiming (committedState i s) (committedState i (s.withTiming n costs width)) := by
  have hstage := stage_withTiming i.form (fallThrough i s) s n costs width
  have hfall : fallThrough i (s.withTiming n costs width) = fallThrough i s := rfl
  refine sameButTiming_iff.2 ⟨(committedState i (s.withTiming n costs width)).tStates, costs, width, ?_⟩
  rw [committedState, hfall, hstage]
  rfl

/-- The fetch reads no timing (48_timing.md R336). -/
theorem fetch_withTiming (s : State) (n : Nat) (costs : CostTable) (width : Option Nat) :
    fetch (s.withTiming n costs width) = fetch s := rfl

/-- Settles O23: both steps fetch the same, and an instruction's stage commutes with the change of timing. -/
theorem timingHasNoEffectOnFunction : Obligations.TimingHasNoEffectOnFunction := by
  intro s s' h
  obtain ⟨n, costs, width, rfl⟩ := sameButTiming_iff.1 h
  have hfetch := fetch_withTiming s n costs width
  refine ⟨by rw [stepReturns, stepReturns, hfetch], ?_⟩
  cases hf : fetch s with
  | refused => rw [step_of_refused hf, step_of_refused (hfetch.trans hf)]; exact h
  | run i => rw [step_of_run hf, step_of_run (hfetch.trans hf)]; exact sameButTiming_committedState i s n costs width
  | rawHalt => rw [step_of_rawHalt hf, step_of_rawHalt (hfetch.trans hf)]; rfl
  | failure => rw [step_fault_iff.2 ⟨hf, rfl⟩, step_fault_iff.2 ⟨hfetch.trans hf, rfl⟩]

end Sys2Proof.Machine
end

section
/-! SUPPORT. When a step fails, and where no record can be; with the claims of 60_exceptions.md and 70_reset_and_hazards.md. -/

namespace Sys2Proof.Machine

open Sys2Proof.Claims

/-- The fetch fails in a running engine without a record and without a 0x76 byte at PC, and only there
(60_exceptions.md R350). -/
theorem fetch_failure_iff {s : State} :
    fetch s = .failure ↔ s.halted = false ∧ noRecordAtPC s ∧ s.mem.read s.pc ≠ 0x76 := by
  constructor
  · intro h
    have hh : s.halted = false := by rw [← Bool.not_eq_true, ← fetch_refused_iff, h]; nofun
    cases hr : findRecord s.prog s.pc with
    | some r => rw [fetch_of_record hh hr] at h; cases h
    | none =>
      refine ⟨hh, noRecordAtPC_iff.2 hr, fun hbyte => ?_⟩
      rw [fetch_rawHalt_iff.2 ⟨hh, noRecordAtPC_iff.2 hr, hbyte⟩] at h
      cases h
  · rintro ⟨hh, hno, hbyte⟩
    exact fetch_failure_of_no_record hh hno hbyte

/-- Settles O17: a step faults exactly when its fetch fails. -/
theorem stepFailsOnlyAtTheFetch : Obligations.StepFailsOnlyAtTheFetch := by
  refine fun s => ⟨fun f => ?_, step_ne_refused s⟩
  rw [step_fault_iff, fetch_failure_iff, and_comm]

/-- The program table of the invariant has no record below the load address (10_state.md R36). -/
theorem noRecordAtPC_of_lt_loadAddress {s : State} (hwf : s.wf = true) (hpc : s.pc.toNat < 0x8000) : noRecordAtPC s := by
  intro r hr haddr
  obtain ⟨-, hprog, -⟩ := State.wf_iff.1 hwf
  obtain ⟨-, hle⟩ := progWfFrom_mem hprog hr
  rw [haddr] at hle
  omega

/-- Settles O24: no record is below the load address, and without one the byte at PC decides. -/
theorem noCodeBelowTheLoadAddress : Obligations.NoCodeBelowTheLoadAddress := by
  intro s hwf hh hpc
  have hno := noRecordAtPC_of_lt_loadAddress hwf hpc
  obtain ⟨-, hhalts, hfails⟩ := stepsThatExecuteNothing s
  by_cases hbyte : s.mem.read s.pc = 0x76
  · obtain ⟨hstep, -⟩ := hhalts hh hno hbyte
    rw [if_pos hbyte, hstep]
  · obtain ⟨hstep, -⟩ := hfails hh hno hbyte
    rw [if_neg hbyte, hstep]

end Sys2Proof.Machine
end
